-- ==== Sys2Proof/Word.lean ====
section
/-! DEFINITION. The word types of the block's registers and ports (00_scope.md R9), and the two port
records of 10_state.md R34 and R35. -/

namespace Sys2Proof

/-- A frame byte, 8 bits, unsigned (00_scope.md R9). -/
abbrev Byte := BitVec 8

/-- `TIME_WIDTH`, the width of a time (00_scope.md R8: 64 bits). It fixes a type, so it is a constant beside the record of
Config.lean, as `N_BITS` and `N_BYTES` are. -/
abbrev Config.timeWidth : Nat := 64

/-- A time in µs or ms, `TIME_WIDTH` bits, unsigned (00_scope.md R9). -/
abbrev Time := BitVec Config.timeWidth

/-- A command word `req_cmd[2:0]`, format CMD3 (30_encoding.md R70). -/
abbrev CmdWord := BitVec 3

/-- A response word `rsp_data[15:0]` (00_scope.md R9). -/
abbrev RspWord := BitVec 16

/-- The RawFrame register, 40 bits (10_state.md R24). -/
abbrev Frame := BitVec 40

/-- The input ports, sampled once per tick (10_state.md R34): the draws of one tick (00_scope.md R6). -/
structure TickIn where
  /-- `rst`: synchronous reset. -/
  rst : Bool
  /-- `now_us`: the time source, µs. -/
  nowUs : Time
  /-- `di`: the line level read this tick, `true` = HIGH. -/
  di : Bool
  /-- `req_valid`: the host presents a command. -/
  reqValid : Bool
  /-- `req_cmd`: the command code. -/
  reqCmd : CmdWord
  deriving DecidableEq, Repr, Inhabited

/-- The output ports of a tick that are not registers (10_state.md R35).
The other four outputs, `pin_oe`, `pin_do`, `pin_pu` and `crit`, are the registers of those names after the tick. -/
structure TickOut where
  /-- `req_ready`: 1 iff FSM = IDLE at the start of the tick (and no reset, 41_frame_decoder.md R120). -/
  reqReady : Bool
  /-- `rsp_valid`: 1 on the tick a command completes. -/
  rspValid : Bool
  /-- `rsp_err`: 1 if the completed command was a reserved code. -/
  rspErr : Bool
  /-- `rsp_data`: the response word. -/
  rspData : RspWord
  deriving DecidableEq, Repr

end Sys2Proof
end

