-- ==== Sys2Proof/Config.lean ====
section
/-! DEFINITION. What is fixed for one block: the parameters of 00_scope.md R8, and the free values (the
draws and the parameters the spec leaves OPEN), which have no body. -/

namespace Sys2Proof

/-- `THRESHOLD_CMP`, the direction of the threshold comparison (00_scope.md R8, 41_frame_decoder.md R131). -/
inductive ThresholdCmp where
  | gt
  | ge
  deriving DecidableEq, Repr

/-- `LAST_BIT_POLICY`, what a zero HIGH measurement of bit 39 means (00_scope.md R8, 41_frame_decoder.md R130). -/
inductive LastBitPolicy where
  | fail
  | one
  deriving DecidableEq, Repr

/-- The parameters of 00_scope.md R8 that have a default and fix no type, each under its own name with that default;
`TIME_WIDTH` is `Config.timeWidth` in Word.lean.
They are plain data held in `State.cfg`, so that a statement about every state is a statement about every
configuration (log entry 3). -/
structure Config where
  /-- `T_START_US`: the LOW half of the start signal. -/
  tStartUs : Nat := 18000
  /-- `T_RELEASE_US`: the HIGH half of the start signal. -/
  tReleaseUs : Nat := 40
  /-- `T_RESP_DEADLINE_US`: the deadline of the response preamble. -/
  tRespDeadlineUs : Nat := 500000
  /-- `T_BIT_TIMEOUT_US`: the deadline of a bit cell's LOW, and the longest HIGH. -/
  tBitTimeoutUs : Nat := 200
  /-- `T_THRESHOLD_US`: the threshold between a 0 and a 1. -/
  tThresholdUs : Nat := 40
  /-- `THRESHOLD_CMP`. -/
  thresholdCmp : ThresholdCmp := .gt
  /-- `LAST_BIT_POLICY`. -/
  lastBitPolicy : LastBitPolicy := .fail
  /-- `MIN_POLL_INTERVAL_MS`: the staleness interval. -/
  minPollIntervalMs : Nat := 2000
  deriving DecidableEq, Repr

namespace Config

/-- The defaults "this hardware uses" (00_scope.md R8). -/
def hardware : Config := {}

/-- `N_BITS`, fixed by the frame format (00_scope.md R8). -/
abbrev nBits : Nat := 40

/-- `N_BYTES`, fixed by the frame format (00_scope.md R8). -/
abbrev nBytes : Nat := 5

/-- FREE VALUE. The draws of the tick number `n` of a run where the environment has scheduled none
(00_scope.md R5, R6: the inputs are free; log entry 1). -/
opaque freeDraw : Nat → TickIn

/-- FREE VALUE. `T_TICK_MAX_US`, OPEN (00_scope.md R8): the largest `now_us` step between two ticks.
No rule's result depends on it (60_exceptions.md R196 (c); log entry 13). -/
opaque tTickMaxUs : Nat

/-- FREE VALUE. One less than `N_PINS` (log entry 13). -/
opaque morePins : Nat

/-- `N_PINS`, OPEN, at least 1 (00_scope.md R8, 60_exceptions.md R200). -/
def nPins : Nat := morePins + 1

/-- FREE VALUE. `READING_FLOAT`, OPEN (30_encoding.md R82): the host's float for an exact value, named by the
rational number it denotes (log entry 12). -/
opaque readingFloat : Rat → Rat

end Config
end Sys2Proof
end

