-- ==== Sys2Proof/Syntax.lean ====
section
/-! DEFINITION. The commands of the host port: one constructor per row of spec/opcode_table.json
(30_encoding.md R71). A command has no operand (R70). -/

namespace Sys2Proof

/-- The eight commands, in the order of their codes (30_encoding.md R71). -/
inductive Instr where
  /-- `RSVD0`, code `0b000`, reserved (30_encoding.md R72). -/
  | rsvd0
  /-- `READ_TEMPERATURE`, code `0b001` (42_host_commands.md R165). -/
  | readTemperature
  /-- `READ_HUMIDITY`, code `0b010` (42_host_commands.md R166). -/
  | readHumidity
  /-- `HAS_VALID_DATA`, code `0b011` (42_host_commands.md R167). -/
  | hasValidData
  /-- `HAS_STALE_DATA`, code `0b100` (42_host_commands.md R168). -/
  | hasStaleData
  /-- `READ_STATUS`, code `0b101` (42_host_commands.md R170). -/
  | readStatus
  /-- `RSVD6`, code `0b110`, reserved (30_encoding.md R72). -/
  | rsvd6
  /-- `RSVD7`, code `0b111`, reserved (30_encoding.md R72). -/
  | rsvd7
  deriving DecidableEq, Repr

end Sys2Proof
end

