-- ==== Sys2Proof/WellFormed.lean ====
section
/-! DEFINITION. What is well formed: a command (always: it has no operand), a number offered as a command
word, a parameter set, and a frame given as a list of bytes. -/

namespace Sys2Proof

/-- Every command is well formed: CMD3 has no operand, immediate or mode bit (30_encoding.md R70, R73). -/
def Instr.wf : Instr → Bool
  | .rsvd0 => true
  | .readTemperature => true
  | .readHumidity => true
  | .hasValidData => true
  | .hasStaleData => true
  | .readStatus => true
  | .rsvd6 => true
  | .rsvd7 => true

/-- A number is a command word only if it fits the three wires `req_cmd[2:0]` (30_encoding.md R70). -/
def commandWordWf (w : Nat) : Bool := decide (w < 2 ^ 3)

/-- A parameter set under which "every sum the rules form then fits 64 bits" follows from premise (b) of
60_exceptions.md R196: that premise bounds `now_us + T_RESP_DEADLINE_US`, so the per-pulse deadline must not
reach further (log entry 11). The defaults meet it. -/
def Config.wf (c : Config) : Bool := decide (c.tBitTimeoutUs ≤ c.tRespDeadlineUs)

/-- A RawFrame has exactly five bytes (00_scope.md R8, `N_BYTES`; 30_encoding.md R80). -/
def frameBytesWf (bs : List Byte) : Bool := bs.length == Config.nBytes

end Sys2Proof
end

