-- ==== Sys2Proof/Decode.lean ====
section
/-! DEFINITION. The command decoder and encoder, both written from the code list of 30_encoding.md R71, and the
command names of the assembler (R84). -/

namespace Sys2Proof

/-- The command a word selects: `op = req_cmd[2:0]` alone (30_encoding.md R71, match = code, mask = `0b111`).
The three bits are matched from bit 2 down to bit 0, and all eight patterns stand here. -/
def decode (w : CmdWord) : Instr :=
  match w.getLsbD 2, w.getLsbD 1, w.getLsbD 0 with
  | false, false, false => .rsvd0
  | false, false, true => .readTemperature
  | false, true, false => .readHumidity
  | false, true, true => .hasValidData
  | true, false, false => .hasStaleData
  | true, false, true => .readStatus
  | true, true, false => .rsvd6
  | true, true, true => .rsvd7

/-- The word of a command (30_encoding.md R71). -/
def encode : Instr → CmdWord
  | .rsvd0 => 0b000#3
  | .readTemperature => 0b001#3
  | .readHumidity => 0b010#3
  | .hasValidData => 0b011#3
  | .hasStaleData => 0b100#3
  | .readStatus => 0b101#3
  | .rsvd6 => 0b110#3
  | .rsvd7 => 0b111#3

/-- Why a number or a byte string is no command. -/
inductive DecodeError where
  /-- There is no word at all. -/
  | noWord
  /-- The number does not fit the three wires of the port (30_encoding.md R70, R73). -/
  | widerThanPort (w : Nat)
  deriving DecidableEq, Repr

/-- Decode a number offered as a command word: every 3-bit word is a command (42_host_commands.md R171 dispatches all
eight), a wider number is refused by name (log entry 17). -/
def decodeNumber (w : Nat) : Except DecodeError Instr :=
  if commandWordWf w then .ok (decode (BitVec.ofNat 3 w)) else .error (.widerThanPort w)

/-- Decode the first command of a byte string that holds one command word a byte, and give the rest back. -/
def decodeBytes : List Byte → Except DecodeError (Instr × List Byte)
  | [] => .error .noWord
  | b :: rest =>
    match decodeNumber b.toNat with
    | .ok i => .ok (i, rest)
    | .error e => .error e

/-- The bytes of an `nbits`-bit number, the least significant byte first. -/
def bytesOfNumber (nbytes w : Nat) : List Byte :=
  (List.range nbytes).map fun k => BitVec.ofNat 8 (w / 2 ^ (8 * k))

/-- What the decoder reads from an instruction whose bits are `w`, numbered as spec/opcode_table.json numbers
them. A command is one word: bits beyond its byte make the number no command. -/
def decodeTableWord (nbits w : Nat) : Option Instr :=
  if w < 2 ^ 8 then
    match decodeBytes (bytesOfNumber ((nbits + 7) / 8) w) with
    | .ok (i, _) => some i
    | .error _ => none
  else none

/-- The mnemonic of a command (30_encoding.md R71, R84; the reserved codes are RSVD0, RSVD6 and RSVD7). -/
def Instr.mnemonic : Instr → String
  | .rsvd0 => "RSVD0"
  | .readTemperature => "READ_TEMPERATURE"
  | .readHumidity => "READ_HUMIDITY"
  | .hasValidData => "HAS_VALID_DATA"
  | .hasStaleData => "HAS_STALE_DATA"
  | .readStatus => "READ_STATUS"
  | .rsvd6 => "RSVD6"
  | .rsvd7 => "RSVD7"

/-- Every command, in the order of the codes. -/
def Instr.all : List Instr :=
  [.rsvd0, .readTemperature, .readHumidity, .hasValidData, .hasStaleData, .readStatus, .rsvd6, .rsvd7]

/-- The command a mnemonic names (30_encoding.md R84: "every mnemonic is one command"). -/
def Instr.ofMnemonic (m : String) : Option Instr := Instr.all.find? fun i => i.mnemonic == m

end Sys2Proof
end

