-- ==== Sys2Proof/Machine/State.lean ====
section
/-! DEFINITION. The state of one block as plain data: the registers of 10_state.md R20, the spec's own sticky
mark `time_refused` (60_exceptions.md R196), the ports of the last tick (10_state.md R34, R35), and the
model's own fields for the environment. -/

namespace Sys2Proof.Machine

/-- The values of `FSM`, in the order of their 3-bit codes (10_state.md R22). -/
inductive Fsm where
  | idle
  | startLow
  | startHigh
  | respCheck
  | preLow
  | preHigh
  | bitLow
  | bitHigh
  deriving DecidableEq, Repr

/-- Which read command waits for its response: the values TEMP and HUM of `PENDING` (10_state.md R27). -/
inductive ReadKind where
  | temp
  | hum
  deriving DecidableEq, Repr

/-- The values of `LAST_STATUS` (60_exceptions.md R190). The codes 6 and 7 are "never written" and the spec lets
a model leave them out of the type (93_implementation_defined.md I16; log entry 16). -/
inductive Status where
  | noPoll
  | ok
  | noResponse
  | handshakeTimeout
  | bitTimeout
  | checksumMismatch
  deriving DecidableEq, Repr

/-- Why the machine stops with a fault. The block never faults: "every input combination has a defined next state"
(00_scope.md R6), and its four poll failures are next states (60_exceptions.md R194). So there is no reason. -/
inductive Fault where
  deriving DecidableEq, Repr

/-- Why an instruction has no meaning. -/
inductive Refusal where
  /-- Raised by an arm of `exec` whose instruction is not modelled yet; no arm is. Safe: nothing is claimed of it. -/
  | notModelled (mnemonic : String)
  deriving DecidableEq, Repr

/-- The state of the block and of its ports. -/
structure State where
  /-- The parameters (00_scope.md R8). The model's own place for them; no step writes it (log entry 3). -/
  cfg : Config
  /-- `FSM` (10_state.md R22). -/
  fsm : Fsm
  /-- `BIT_IDX` (10_state.md R23). -/
  bitIdx : BitVec 6
  /-- `FRAME` (10_state.md R24). -/
  frame : Frame
  /-- `T_MARK`, µs (10_state.md R25). -/
  tMark : Time
  /-- `DEADLINE`, µs (10_state.md R26). -/
  deadline : Time
  /-- `PENDING`; NONE is `none` (10_state.md R27). -/
  pending : Option ReadKind
  /-- `HUM_INT` (10_state.md R28). -/
  humInt : Byte
  /-- `HUM_FRAC` (10_state.md R28). -/
  humFrac : Byte
  /-- `TEMP_INT` (10_state.md R28). -/
  tempInt : Byte
  /-- `TEMP_FRAC` (10_state.md R28). -/
  tempFrac : Byte
  /-- `VALID` (10_state.md R29). -/
  valid : Bool
  /-- `LAST_POLL_MS` (10_state.md R30). -/
  lastPollMs : Time
  /-- `LAST_STATUS` (10_state.md R31). -/
  lastStatus : Status
  /-- `PIN_OE` (10_state.md R32). -/
  pinOe : Bool
  /-- `PIN_DO` (10_state.md R32). -/
  pinDo : Bool
  /-- `PIN_PU` (10_state.md R32). -/
  pinPu : Bool
  /-- `CRIT` (10_state.md R33). -/
  crit : Bool
  /-- The sticky mark `time_refused`, the spec's model bookkeeping (60_exceptions.md R196). -/
  timeRefused : Bool
  /-- The input ports as sampled on the last tick (10_state.md R34). -/
  inp : TickIn
  /-- The outputs of the last tick that are no registers (10_state.md R35). -/
  out : TickOut
  /-- The input ticks the environment has scheduled, oldest first. The model's own (log entry 1). -/
  draws : List TickIn
  /-- How many ticks the run has taken; indexes the free draws. The model's own (log entry 1). -/
  tickNo : Nat
  deriving DecidableEq, Repr

/-- The machine right after reset: every register as 70_reset_and_hazards.md R220 says. "Power-on behaves as one
tick with rst = 1" (R221), so the ports show such a tick; its other inputs and the model's own fields are
DESIGN CHOICE (log entry 4). -/
def State.reset : State where
  cfg := Config.hardware
  fsm := .idle
  bitIdx := 0
  frame := 0
  tMark := 0
  deadline := 0
  pending := none
  humInt := 0
  humFrac := 0
  tempInt := 0
  tempFrac := 0
  valid := false
  lastPollMs := 0
  lastStatus := .noPoll
  pinOe := false
  pinDo := true
  pinPu := true
  crit := false
  timeRefused := false
  inp := { rst := true, nowUs := 0, di := false, reqValid := false, reqCmd := 0 }
  out := { reqReady := false, rspValid := false, rspErr := false, rspData := 0 }
  draws := []
  tickNo := 0

end Sys2Proof.Machine
end

