-- ==== Sys2Proof/Machine/Operands.lean ====
section
/-! DEFINITION. The forms of the values that go over the ports and the line: response words (30_encoding.md R74 to
R77), register codes (10_state.md R22, 60_exceptions.md R190), the bytes and bits of a frame (30_encoding.md
R79 to R81) and the value of a reading (R82). -/

namespace Sys2Proof.Machine

/-- Format `RSP_READING`: the integer byte in bits 15..8, the tenths byte in bits 7..0 (30_encoding.md R74). -/
def readingWord (int frac : Byte) : RspWord := int ++ frac

/-- Format `RSP_FLAG`: `zext_16` of a 1-bit flag (30_encoding.md R75). -/
def flagWord (f : Bool) : RspWord := (BitVec.ofBool f).setWidth 16

/-- The 3-bit code of `LAST_STATUS` (60_exceptions.md R190). -/
def statusCode : Status → BitVec 3
  | .noPoll => 0
  | .ok => 1
  | .noResponse => 2
  | .handshakeTimeout => 3
  | .bitTimeout => 4
  | .checksumMismatch => 5

/-- Format `RSP_STATUS`: `zext_16(LAST_STATUS)` (30_encoding.md R76). -/
def statusWord (c : Status) : RspWord := (statusCode c).setWidth 16

/-- The word of format `RSP_ERR` (30_encoding.md R77). -/
def errorWord : RspWord := 0x0000#16

/-- The 3-bit code of `FSM`, "0 to 7 in that order" (10_state.md R22). -/
def fsmCode : Fsm → BitVec 3
  | .idle => 0
  | .startLow => 1
  | .startHigh => 2
  | .respCheck => 3
  | .preLow => 4
  | .preHigh => 5
  | .bitLow => 6
  | .bitHigh => 7

/-- Byte `k` of a frame, byte 0 at `FRAME[39:32]` down to byte 4 at `FRAME[7:0]` (30_encoding.md R81). -/
def frameByte (f : Frame) (k : Nat) : Byte := f.extractLsb' (8 * (4 - k)) 8

/-- The frame whose bytes are the given five, in arrival order (30_encoding.md R80, R81). -/
def frameOfBytes (b0 b1 b2 b3 b4 : Byte) : Frame := b0 ++ b1 ++ b2 ++ b3 ++ b4

/-- The bits of a byte in arrival order, most significant first (30_encoding.md R79). -/
def byteWireBits (b : Byte) : List Bool := (List.range 8).map fun j => b.getLsbD (7 - j)

/-- The bits of a frame in arrival order: byte 0 first, each byte most significant bit first
(30_encoding.md R79, R80). -/
def frameWireBits (bs : List Byte) : List Bool := bs.flatMap byteWireBits

/-- The exact value of a reading, `I + F/10`, both bytes unsigned, also for `F > 9` (30_encoding.md R82). -/
def readingValue (int frac : Byte) : Rat := int.toNat + frac.toNat / 10

/-- The value a host computes from the response word of a READ (30_encoding.md R74, R82). -/
def responseValue (w : RspWord) : Rat := readingValue (w.extractLsb' 8 8) (w.extractLsb' 0 8)

/-- The host's float for a response word, by the OPEN parameter `READING_FLOAT` (30_encoding.md R82). -/
def hostFloat (w : RspWord) : Rat := Config.readingFloat (responseValue w)

end Sys2Proof.Machine
end

