-- ==== Sys2Proof/Machine/Flags.lean ====
section
/-! DEFINITION. The block's status flags (10_state.md R36): `VALID` and `CRIT` are registers; *stale* is computed
here from `LAST_POLL_MS` and the time of the tick (42_host_commands.md R163). -/

namespace Sys2Proof.Machine

/-- `now_ms = now_us div 1000` (60_exceptions.md R195). -/
def nowMs (now : Time) : Nat := now.toNat / 1000

/-- `is_stale(now_ms)`, over naturals, strict, with the time of the tick that asks (42_host_commands.md R163). -/
def isStale (s : State) : Bool :=
  decide (s.lastPollMs.toNat + s.cfg.minPollIntervalMs < nowMs s.inp.nowUs)

/-- The bit phase, the states in which `CRIT` is 1 (10_state.md R33). -/
def inBitPhase : Fsm → Bool
  | .bitLow | .bitHigh => true
  | .idle | .startLow | .startHigh | .respCheck | .preLow | .preHigh => false

/-- Premises (a) and (b) of 60_exceptions.md R196 on one tick: time is not before the previous tick's, and the
longest deadline of the rules fits `TIME_WIDTH` bits. -/
def timeAdmissible (c : Config) (prev now : Time) : Bool :=
  decide (prev.toNat ≤ now.toNat) && decide (now.toNat + c.tRespDeadlineUs < 2 ^ Config.timeWidth)

end Sys2Proof.Machine
end

