-- ==== Sys2Proof/Machine/Sampler.lean ====
section
/-! DEFINITION. The sampler's three primitives as conditions on one tick (40_sampler.md R100 to R107). Times are
compared as naturals (00_scope.md R11). -/

namespace Sys2Proof.Machine

/-- The exit condition of `delay(d)`: `now_us - T_MARK >= d` (40_sampler.md R101). -/
def delayElapsed (d : Nat) (now mark : Time) : Bool := decide (now.toNat - mark.toNat ≥ d)

/-- What a tick of `wait_for_level` comes to. -/
inductive WaitResult where
  | success
  | timeout
  | stay
  deriving DecidableEq, Repr

/-- `wait_for_level(e, deadline)` on one tick: the level is tested before the deadline, and only a time strictly
past the deadline is a timeout (40_sampler.md R102, R103). -/
def waitForLevel (e di : Bool) (now deadline : Time) : WaitResult :=
  if di = e then .success
  else if now.toNat > deadline.toNat then .timeout
  else .stay

/-- `measure_pulse_width(HIGH, t)` on one tick: `none` while the pulse goes on, else the result `r`, where 0 means
timeout (40_sampler.md R104, R105). -/
def measurePulseWidth (t : Nat) (di : Bool) (now mark : Time) : Option Nat :=
  let w := now.toNat - mark.toNat
  if di = false then some (if w ≤ t then w else 0)
  else if w > t then some 0
  else none

/-- `now_us + d` in a time register (40_sampler.md R107). 60_exceptions.md R196 (b) makes it the sum in
naturals. -/
def deadlineAfter (now : Time) (d : Nat) : Time := BitVec.ofNat Config.timeWidth (now.toNat + d)

end Sys2Proof.Machine
end

