-- ==== Sys2Proof/Machine/Ops.lean ====
section
/-! DEFINITION. The operations the rules share: what every tick does first, a refused tick, reset, a response, the
start of a poll, and its two ends, `complete()` and `fail(code)`. The block takes no exception; `fail` has that
role (00_scope.md R12), and its return to IDLE is `complete` (60_exceptions.md R194). -/

namespace Sys2Proof.Machine

/-- `d` placed in front of the scheduled ticks, so that the next tick reads it. -/
def present (d : TickIn) (s : State) : State := { s with draws := d :: s.draws }

/-- The inputs of the next tick: the oldest scheduled draw, else a free one (log entry 1). -/
def nextDraw (s : State) : TickIn :=
  match s.draws with
  | d :: _ => d
  | [] => Config.freeDraw s.tickNo

/-- The start of a tick: the ports are sampled once (10_state.md R34), and the outputs take their defaults,
`req_ready` by the state at the start of the tick (41_frame_decoder.md R120, 10_state.md R35). -/
def latch (d : TickIn) (s : State) : State :=
  { s with
    inp := d
    out := { reqReady := !d.rst && decide (s.fsm = .idle), rspValid := false, rspErr := false, rspData := 0 }
    draws := s.draws.tail
    tickNo := s.tickNo + 1 }

/-- A refused tick: the sticky mark is set, and no register changes (60_exceptions.md R196). -/
def refuseTime (s : State) : State := { s with timeRefused := true }

/-- `reset()`: every register of 10_state.md R20 takes its reset value (70_reset_and_hazards.md R220). The mark
`time_refused` and the parameters are no registers of the block and stay. -/
def resetRegisters (s : State) : State :=
  { s with
    fsm := .idle
    bitIdx := 0
    frame := 0
    tMark := 0
    deadline := 0
    pending := none
    humInt := 0
    humFrac := 0
    tempInt := 0
    tempFrac := 0
    valid := false
    lastPollMs := 0
    lastStatus := .noPoll
    pinOe := false
    pinDo := true
    pinPu := true
    crit := false }

/-- `respond(data16, err)`: the response outputs of this tick (42_host_commands.md R162). -/
def respond (data : RspWord) (err : Bool) (s : State) : State :=
  { s with out := { s.out with rspValid := true, rspErr := err, rspData := data } }

/-- The cached reading of a kind as a response word (30_encoding.md R74). -/
def cachedWord (k : ReadKind) (s : State) : RspWord :=
  match k with
  | .temp => readingWord s.tempInt s.tempFrac
  | .hum => readingWord s.humInt s.humFrac

/-- `start_poll(kind)`: the timestamp at entry, the line driven LOW, the start of the 18 ms hold
(42_host_commands.md R164). -/
def startPoll (k : ReadKind) (s : State) : State :=
  { s with
    lastPollMs := BitVec.ofNat Config.timeWidth (nowMs s.inp.nowUs)
    pending := some k
    pinOe := true
    pinDo := false
    tMark := s.inp.nowUs
    fsm := .startLow }

/-- A READ command: a poll when stale, else the cached reading at once (42_host_commands.md R165, R166). -/
def readCommand (k : ReadKind) (s : State) : State :=
  if isStale s then startPoll k s else respond (cachedWord k s) false s

/-- The answer of `complete()` to the command that started the poll, from the registers as updated on this tick
(41_frame_decoder.md R136). With `PENDING = NONE`, which no run reaches here, the rule's case has no arm and
nothing is answered (log entry 8). -/
def respondPending (s : State) : State :=
  match s.pending with
  | some k => respond (cachedWord k s) false s
  | none => s

/-- `complete()`: answer, then `PENDING <- NONE` and `FSM <- IDLE` (41_frame_decoder.md R136). -/
def complete (s : State) : State := { respondPending s with pending := none, fsm := .idle }

/-- `fail(code)`: the poll-failure exit (41_frame_decoder.md R137). -/
def failPoll (code : Status) (s : State) : State :=
  complete { s with lastStatus := code, crit := false, pinOe := false, pinPu := true }

/-- `success(b0, b1, b2, b3)`: the reading is written whole, on the tick that completes the poll
(41_frame_decoder.md R135). -/
def success (b0 b1 b2 b3 : Byte) (s : State) : State :=
  complete { s with
    humInt := b0
    humFrac := b1
    tempInt := b2
    tempFrac := b3
    valid := true
    lastStatus := .ok }

end Sys2Proof.Machine
end

