-- ==== Sys2Proof/Machine/Commands.lean ====
section
/-! DEFINITION. The meaning of each command on the tick that accepts it (42_host_commands.md R165 to R170). That a
command is accepted only in IDLE is the tick's business (R160, log entry 18). Each meaning reads the tick's
time and the registers from the state. -/

namespace Sys2Proof.Machine

/-- `RSVD0`: the error response is the whole effect (42_host_commands.md R169). -/
def execRsvd0 (s : State) : Host.Outcome State Fault Refusal := .next (respond errorWord true s)

/-- `READ_TEMPERATURE` (42_host_commands.md R165). -/
def execReadTemperature (s : State) : Host.Outcome State Fault Refusal := .next (readCommand .temp s)

/-- `READ_HUMIDITY` (42_host_commands.md R166). -/
def execReadHumidity (s : State) : Host.Outcome State Fault Refusal := .next (readCommand .hum s)

/-- `HAS_VALID_DATA`, a pure observer (42_host_commands.md R167). -/
def execHasValidData (s : State) : Host.Outcome State Fault Refusal := .next (respond (flagWord s.valid) false s)

/-- `HAS_STALE_DATA`, a pure observer: whether a READ on this tick would start a poll (42_host_commands.md R168). -/
def execHasStaleData (s : State) : Host.Outcome State Fault Refusal := .next (respond (flagWord (isStale s)) false s)

/-- `READ_STATUS`, the diagnostic side channel (42_host_commands.md R170). -/
def execReadStatus (s : State) : Host.Outcome State Fault Refusal := .next (respond (statusWord s.lastStatus) false s)

/-- `RSVD6` (42_host_commands.md R169). -/
def execRsvd6 (s : State) : Host.Outcome State Fault Refusal := .next (respond errorWord true s)

/-- `RSVD7` (42_host_commands.md R169). -/
def execRsvd7 (s : State) : Host.Outcome State Fault Refusal := .next (respond errorWord true s)

end Sys2Proof.Machine
end

