-- ==== Sys2Proof/Machine/Dispatch.lean ====
section
/-! DEFINITION. The command dispatch of `idle_step` (42_host_commands.md R171): one arm per command. -/

namespace Sys2Proof.Machine

def exec (i : Instr) (s : State) : Host.Outcome State Fault Refusal :=
  match i with
  | .rsvd0 => Sys2Proof.Machine.execRsvd0 s
  | .readTemperature => Sys2Proof.Machine.execReadTemperature s
  | .readHumidity => Sys2Proof.Machine.execReadHumidity s
  | .hasValidData => Sys2Proof.Machine.execHasValidData s
  | .hasStaleData => Sys2Proof.Machine.execHasStaleData s
  | .readStatus => Sys2Proof.Machine.execReadStatus s
  | .rsvd6 => Sys2Proof.Machine.execRsvd6 s
  | .rsvd7 => Sys2Proof.Machine.execRsvd7 s

end Sys2Proof.Machine
end

