-- ==== Sys2Proof/Machine/FrameDecoder.lean ====
section
/-! DEFINITION. The frame decoder: one definition per FSM state but IDLE, and the comparator, the assembler and the
checksum validator (41_frame_decoder.md R123 to R137). Each takes the state with the tick's inputs latched. -/

namespace Sys2Proof.Machine

/-- `START_LOW`, `delay(T_START_US)` (41_frame_decoder.md R123). -/
def startLowTick (s : State) : State :=
  if delayElapsed s.cfg.tStartUs s.inp.nowUs s.tMark then
    { s with pinDo := true, tMark := s.inp.nowUs, fsm := .startHigh }
  else s

/-- `START_HIGH`, `delay(T_RELEASE_US)` (41_frame_decoder.md R124). -/
def startHighTick (s : State) : State :=
  if delayElapsed s.cfg.tReleaseUs s.inp.nowUs s.tMark then
    { s with pinOe := false, pinPu := true, fsm := .respCheck }
  else s

/-- `RESP_CHECK`, one sample (41_frame_decoder.md R125). -/
def respCheckTick (s : State) : State :=
  if s.inp.di then failPoll .noResponse s
  else { s with deadline := deadlineAfter s.inp.nowUs s.cfg.tRespDeadlineUs, fsm := .preLow }

/-- `PRE_LOW`, `wait_for_level(1, DEADLINE)` (41_frame_decoder.md R126). -/
def preLowTick (s : State) : State :=
  match waitForLevel true s.inp.di s.inp.nowUs s.deadline with
  | .success => { s with fsm := .preHigh }
  | .timeout => failPoll .handshakeTimeout s
  | .stay => s

/-- `PRE_HIGH`, `wait_for_level(0, DEADLINE)`, and the entry to the bit phase (41_frame_decoder.md R127). -/
def preHighTick (s : State) : State :=
  match waitForLevel false s.inp.di s.inp.nowUs s.deadline with
  | .success =>
    { s with
      bitIdx := 0
      frame := 0
      deadline := deadlineAfter s.inp.nowUs s.cfg.tBitTimeoutUs
      crit := true
      fsm := .bitLow }
  | .timeout => failPoll .handshakeTimeout s
  | .stay => s

/-- `BIT_LOW`, `wait_for_level(1, DEADLINE)` with the cell's own deadline (41_frame_decoder.md R128). -/
def bitLowTick (s : State) : State :=
  match waitForLevel true s.inp.di s.inp.nowUs s.deadline with
  | .success => { s with tMark := s.inp.nowUs, fsm := .bitHigh }
  | .timeout => failPoll .bitTimeout s
  | .stay => s

/-- The threshold comparator `classify(r)` (41_frame_decoder.md R131). -/
def classify (c : Config) (r : Nat) : Bool :=
  match c.thresholdCmp with
  | .gt => decide (r > c.tThresholdUs)
  | .ge => decide (r ≥ c.tThresholdUs)

/-- `F' = FRAME[38:0] ++ b` (41_frame_decoder.md R132). -/
def shiftIn (f : Frame) (b : Bool) : Frame := f.extractLsb' 0 39 ++ BitVec.ofBool b

/-- `(byte0 + byte1 + byte2 + byte3) mod 256` (41_frame_decoder.md R134). -/
def frameSum (f : Frame) : Nat :=
  ((frameByte f 0).toNat + (frameByte f 1).toNat + (frameByte f 2).toNat + (frameByte f 3).toNat) % 256

/-- Whether byte 4 is the checksum of bytes 0 to 3 (41_frame_decoder.md R134). -/
def checksumOk (f : Frame) : Bool := decide (frameSum f = (frameByte f 4).toNat)

/-- `check_frame(F)` (41_frame_decoder.md R134). -/
def checkFrame (f : Frame) (s : State) : State :=
  if checksumOk f then success (frameByte f 0) (frameByte f 1) (frameByte f 2) (frameByte f 3) s
  else failPoll .checksumMismatch s

/-- Bit advance and end of bits (41_frame_decoder.md R133). `f` is F', the frame with the bit just appended. -/
def advanceBit (f : Frame) (s : State) : State :=
  if s.bitIdx.toNat < Config.nBits - 1 then
    { s with
      bitIdx := s.bitIdx + 1
      deadline := deadlineAfter s.inp.nowUs s.cfg.tBitTimeoutUs
      fsm := .bitLow }
  else checkFrame f { s with crit := false }

/-- `accept_bit(b)`: append, then advance with F' (41_frame_decoder.md R132). -/
def acceptBit (b : Bool) (s : State) : State :=
  advanceBit (shiftIn s.frame b) { s with frame := shiftIn s.frame b }

/-- `zero_result()`, the last-bit policy (41_frame_decoder.md R130). -/
def zeroResult (s : State) : State :=
  if s.bitIdx.toNat = Config.nBits - 1 ∧ s.cfg.lastBitPolicy = .one then acceptBit true s
  else failPoll .bitTimeout s

/-- `BIT_HIGH`, `measure_pulse_width(HIGH, T_BIT_TIMEOUT_US)` (41_frame_decoder.md R129). -/
def bitHighTick (s : State) : State :=
  match measurePulseWidth s.cfg.tBitTimeoutUs s.inp.di s.inp.nowUs s.tMark with
  | none => s
  | some 0 => zeroResult s
  | some (r + 1) => acceptBit (classify s.cfg (r + 1)) s

end Sys2Proof.Machine
end

