-- ==== Sys2Proof/Machine/Tick.lean ====
section
/-! DEFINITION. The next-state function of one tick (41_frame_decoder.md R120), its IDLE state (R122 and
42_host_commands.md R171), and the check of the time premises in front of it (60_exceptions.md R196). -/

namespace Sys2Proof.Machine

/-- `idle_step`: with a request, run its command; else nothing changes (42_host_commands.md R160, R171). -/
def idleTick (s : State) : Host.Outcome State Fault Refusal :=
  if s.inp.reqValid then exec (decode s.inp.reqCmd) s else .next s

/-- The state rule of the tick: exactly one runs (41_frame_decoder.md R120). -/
def stateRule (s : State) : Host.Outcome State Fault Refusal :=
  match s.fsm with
  | .idle => idleTick s
  | .startLow => .next (startLowTick s)
  | .startHigh => .next (startHighTick s)
  | .respCheck => .next (respCheckTick s)
  | .preLow => .next (preLowTick s)
  | .preHigh => .next (preHighTick s)
  | .bitLow => .next (bitLowTick s)
  | .bitHigh => .next (bitHighTick s)

/-- `tick(S, in)` with the inputs latched: `rst` overrides every state (41_frame_decoder.md R120,
60_exceptions.md R193). -/
def tick (s : State) : Host.Outcome State Fault Refusal :=
  if s.inp.rst then .next (resetRegisters s) else stateRule s

/-- One tick with the inputs `d`: refused at the boundary if its time breaks the premises (60_exceptions.md R196,
00_scope.md R6; log entries 5 to 7), else `tick`. -/
def tickWith (d : TickIn) (s : State) : Host.Outcome State Fault Refusal :=
  if timeAdmissible s.cfg s.inp.nowUs d.nowUs then tick (latch d s) else .next (refuseTime (latch d s))

/-- The draw that offers the command word `w`, with the line and the time as they stood on the last tick (time does
not have to advance, 40_sampler.md R100). -/
def commandDraw (w : CmdWord) (s : State) : TickIn :=
  { rst := false, nowUs := s.inp.nowUs, di := s.inp.di, reqValid := true, reqCmd := w }

/-- The state whose next tick accepts the command word `w`: a block takes a command only in IDLE
(42_host_commands.md R160), so FSM is IDLE, and the next draw offers the word (log entry 2). -/
def offerCommand (w : CmdWord) (s : State) : State :=
  present (commandDraw w s) { s with fsm := .idle }

end Sys2Proof.Machine
end

