-- ==== Sys2Proof/Machine/Step.lean ====
section
/-! DEFINITION. One step of the machine is one sample tick with the next draw (00_scope.md R6, log entry 1). -/

namespace Sys2Proof.Machine

/-- One tick. -/
def step (s : State) : Host.Outcome State Fault Refusal := tickWith (nextDraw s) s

/-- `s` with the command `w` offered on the host port on its very next tick. The port has three wires, and the
table numbers a command's bits from bit 0 of them (30_encoding.md R70), so `nbits` places nothing. -/
def State.withFetchWord (s : State) (nbits w : Nat) : State :=
  offerCommand (BitVec.ofNat 3 (w % 2 ^ nbits)) s

end Sys2Proof.Machine
end

