-- ==== Sys2Proof/Machine/Environment.lean ====
section
/-! DEFINITION. The environment of a block in the spec's own test terms: the line (60_exceptions.md R197), command
scripts (30_encoding.md R84), line stimuli (R85), and a run of both with its end and its observation
(70_reset_and_hazards.md R234). Nothing here is part of the block. -/

namespace Sys2Proof.Machine

/-- The states in which the block reads `di` (41_frame_decoder.md R140). -/
def readsLine : Fsm → Bool
  | .idle | .startLow | .startHigh => false
  | .respCheck | .preLow | .preHigh | .bitLow | .bitHigh => true

/-- The level of the line, given whether the sensor pulls it LOW (60_exceptions.md R197). `none` where the spec gives
none: a sensor that pulls while the block drives, at either level (R197, 70_reset_and_hazards.md R230,
93_implementation_defined.md I24: not represented), and a line that nobody drives and no pull-up holds, which no run
shows (log entry 15). -/
def lineLevel (s : State) (sensorPulls : Bool) : Option Bool :=
  match s.pinOe, sensorPulls, s.pinPu with
  | true, true, _ => none
  | true, false, _ => some s.pinDo
  | false, true, _ => some false
  | false, false, true => some true
  | false, false, false => none

/-- One line of a command script, `@<now_us> <MNEMONIC>` (30_encoding.md R84). -/
structure ScriptLine where
  /-- The time of the tick on which the host raises `req_valid`. -/
  atUs : Nat
  /-- The command. -/
  cmd : Instr
  deriving DecidableEq, Repr

/-- A decimal digit's value. -/
def digitValue (c : Char) : Option Nat := if c.isDigit then some (c.toNat - '0'.toNat) else none

/-- The decimal number in front of the first space, and what follows that space. -/
def readDecimal : List Char → Nat → Option (Nat × List Char)
  | [], _ => none
  | c :: rest, n =>
    if c = ' ' then some (n, rest)
    else match digitValue c with
      | some d => readDecimal rest (10 * n + d)
      | none => none

/-- The assembler: one command a line, and every mnemonic is one command (30_encoding.md R84). -/
def assembleLine (line : String) : Option ScriptLine :=
  match line.toList with
  | '@' :: c :: rest =>
    if c = ' ' then none
    else match readDecimal (c :: rest) 0 with
      | some (t, m) => (Instr.all.find? fun i => i.mnemonic.toList == m).map fun i => { atUs := t, cmd := i }
      | none => none
  | _ => none

/-- A segment of a line stimulus, one tick per µs (30_encoding.md R85). -/
inductive Segment where
  /-- `L<n>`. -/
  | low (n : Nat)
  /-- `H<n>`. -/
  | high (n : Nat)
  /-- `L*`. -/
  | lowForever
  /-- `H*`. -/
  | highForever
  /-- `BIT0`, that is `L50 H28`. -/
  | bit0
  /-- `BIT1`, that is `L50 H70`. -/
  | bit1
  /-- `FRAME b0 b1 b2 b3 b4`: 40 cells, then `L50 H*`. -/
  | frame (b0 b1 b2 b3 b4 : Byte)
  deriving DecidableEq, Repr

/-- A stimulus written out: the levels of its ticks, then the level that goes on for ever, if one does. -/
structure Stimulus where
  /-- The levels, the `RESP_CHECK` tick's first. -/
  levels : List Bool
  /-- The level of all later ticks. -/
  forever : Option Bool
  deriving DecidableEq, Repr

/-- The levels of one bit cell (30_encoding.md R85). -/
def cellLevels (b : Bool) : List Bool := List.replicate 50 false ++ List.replicate (if b then 70 else 28) true

/-- Levels in front of a stimulus. -/
def Stimulus.after (levels : List Bool) (t : Stimulus) : Stimulus :=
  { levels := levels ++ t.levels, forever := t.forever }

/-- The stimulus a list of segments stands for; what follows an endless segment is never reached
(30_encoding.md R85). -/
def expandSegments : List Segment → Stimulus
  | [] => { levels := [], forever := none }
  | .low n :: rest => (expandSegments rest).after (List.replicate n false)
  | .high n :: rest => (expandSegments rest).after (List.replicate n true)
  | .lowForever :: _ => { levels := [], forever := some false }
  | .highForever :: _ => { levels := [], forever := some true }
  | .bit0 :: rest => (expandSegments rest).after (cellLevels false)
  | .bit1 :: rest => (expandSegments rest).after (cellLevels true)
  | .frame b0 b1 b2 b3 b4 :: _ =>
    { levels := (frameWireBits [b0, b1, b2, b3, b4]).flatMap cellLevels ++ List.replicate 50 false
      forever := some true }

/-- The level on the `k`-th tick from the `RESP_CHECK` tick on, if the stimulus gives one. -/
def Stimulus.level (t : Stimulus) (k : Nat) : Option Bool := (t.levels[k]?).or t.forever

/-- A host and a line at work: the script not yet accepted, the stimuli of the polls to come, the ticks the line has
been read for in the current poll, and the time of the next tick. -/
structure Scenario where
  script : List ScriptLine
  polls : List Stimulus
  readTicks : Nat
  nowUs : Nat
  deriving DecidableEq, Repr

/-- The request on the port: the first script line from its time on, held until it is accepted
(30_encoding.md R84, 42_host_commands.md R161 (a)). -/
def Scenario.request (e : Scenario) : Option Instr :=
  match e.script with
  | l :: _ => if l.atUs ≤ e.nowUs then some l.cmd else none
  | [] => none

/-- The line level: the poll's stimulus where the block reads the line, free where the spec gives none (log entry
20). -/
def Scenario.line (e : Scenario) (s : State) : Bool :=
  match (if readsLine s.fsm then e.polls.head?.bind fun p => p.level e.readTicks else none) with
  | some b => b
  | none => (Config.freeDraw s.tickNo).di

/-- The draws of the next tick. DESIGN CHOICE (log entry 19): a scripted run holds no reset tick after its start, so `rst`
is 0; 30_encoding.md R84 and R85 have no notation for one. -/
def Scenario.draw (e : Scenario) (s : State) : TickIn :=
  { rst := false
    nowUs := BitVec.ofNat Config.timeWidth e.nowUs
    di := e.line s
    reqValid := e.request.isSome
    reqCmd := match e.request with
      | some i => encode i
      | none => 0 }

/-- The scenario after a tick that took the block from `s` to `t`: one µs later, an accepted line off the script,
and a poll that ended off the stimuli. DESIGN CHOICE (log entry 21): a command offered in IDLE on a tick that is refused
for its time counts as accepted, though it neither runs nor is answered; the spec says nothing of runs that break the
time premises. -/
def Scenario.after (e : Scenario) (s t : State) : Scenario :=
  let ended := decide (s.fsm ≠ .idle) && decide (t.fsm = .idle)
  { script := if e.request.isSome && decide (s.fsm = .idle) then e.script.tail else e.script
    polls := if ended then e.polls.tail else e.polls
    readTicks := if readsLine s.fsm && !ended then e.readTicks + 1 else 0
    nowUs := e.nowUs + 1 }

/-- A response and the time of the tick that gave it (00_scope.md R7). -/
structure Response where
  atUs : Nat
  err : Bool
  data : RspWord
  deriving DecidableEq, Repr

/-- The response of the last tick, if it gave one. -/
def responseOf (s : State) : Option Response :=
  if s.out.rspValid then some { atUs := s.inp.nowUs.toNat, err := s.out.rspErr, data := s.out.rspData } else none

/-- What is observed of a run: its responses, its end state (which holds its `time_refused` mark), and whether it
ended within the given ticks (70_reset_and_hazards.md R234). -/
structure RunRecord where
  responses : List Response
  endState : State
  ended : Bool
  deriving DecidableEq, Repr

/-- At most `n` ticks of a scenario, up to the first tick at which every command has been accepted and the block is
idle: the last accepted command has then been answered (70_reset_and_hazards.md R234, 42_host_commands.md R173). -/
def runScenario : Nat → Scenario → State → RunRecord
  | 0, _, s => { responses := [], endState := s, ended := false }
  | n + 1, e, s =>
    match step (present (e.draw s) s) with
    | .next t =>
      let e' := e.after s t
      let r := if e'.script.isEmpty && decide (t.fsm = .idle)
        then { responses := [], endState := t, ended := true } else runScenario n e' t
      { r with responses := (responseOf t).toList ++ r.responses }
    | .fault _ => { responses := [], endState := s, ended := false }
    | .refused _ => { responses := [], endState := s, ended := false }

end Sys2Proof.Machine
end

