-- ==== Sys2Proof/Machine/Platform.lean ====
section
/-! DEFINITION. A platform of several sensors: independent copies of the block that share only the time source, and the
runs of it that the spec admits (60_exceptions.md R200, 93_implementation_defined.md I13; log entry 14). -/

namespace Sys2Proof.Machine

/-- The inputs of one copy that are its own: everything but the time (60_exceptions.md R200). -/
structure PinIn where
  rst : Bool
  di : Bool
  reqValid : Bool
  reqCmd : CmdWord
  deriving DecidableEq, Repr

/-- The copies, one per sensor pin. The pin identifier is the position (60_exceptions.md R200). -/
structure Platform where
  pins : List State
  deriving DecidableEq, Repr

/-- A platform has `N_PINS` copies. -/
def platformWf (p : Platform) : Prop := p.pins.length = Config.nPins

/-- The inputs of one tick of a platform: one time for all, and the own inputs of each copy, in the order of the pins. -/
structure PlatformIn where
  nowUs : Time
  pins : List PinIn
  deriving DecidableEq, Repr

/-- Why a platform's tick is no tick of an admitted run. -/
inductive PlatformRefusal where
  /-- Two copies poll at once: "outside the admitted runs" (60_exceptions.md R200), the treatment "refuse" of
  93_implementation_defined.md I13. Raised by `platformTick`. Safe: nothing is claimed of such a run. -/
  | concurrentPolls
  /-- There is not exactly one input record for each copy, so the record is no draw of this platform (each copy samples
  all its ports on every tick, 10_state.md R34). Raised by `platformTick`. Safe: nothing is claimed of it. -/
  | notOneInputPerPin
  /-- A copy has no next state. Raised by `platformTick` for a copy's refusal, which no copy answers. Safe. -/
  | copyRefused (r : Refusal)
  deriving DecidableEq, Repr

/-- The draws of one copy: its own inputs and the shared time. -/
def pinDraw (now : Time) (i : PinIn) : TickIn :=
  { rst := i.rst, nowUs := now, di := i.di, reqValid := i.reqValid, reqCmd := i.reqCmd }

/-- A copy polls from leaving IDLE to returning to it (00_scope.md R14). -/
def polling (s : State) : Bool := decide (s.fsm ≠ .idle)

/-- At most one copy polls (60_exceptions.md R200). -/
def platformAdmitted (p : Platform) : Bool := decide (p.pins.countP polling ≤ 1)

/-- One tick of every copy, each on its own inputs and the shared time. -/
def tickCopies (now : Time) : List PinIn → List State → Host.Outcome (List State) Fault PlatformRefusal
  | [], [] => .next []
  | i :: is, s :: ss =>
    match step (present (pinDraw now i) s) with
    | .next t =>
      match tickCopies now is ss with
      | .next ts => .next (t :: ts)
      | .fault f => .fault f
      | .refused r => .refused r
    | .fault f => .fault f
    | .refused r => .refused (.copyRefused r)
  | [], _ :: _ => .refused .notOneInputPerPin
  | _ :: _, [] => .refused .notOneInputPerPin

/-- One tick of a platform. A tick after which two copies poll is outside the admitted runs and refused
(60_exceptions.md R200). -/
def platformTick (x : PlatformIn) (p : Platform) : Host.Outcome Platform Fault PlatformRefusal :=
  match tickCopies x.nowUs x.pins p.pins with
  | .next ts => if platformAdmitted ⟨ts⟩ then .next ⟨ts⟩ else .refused .concurrentPolls
  | .fault f => .fault f
  | .refused r => .refused r

/-- A run of a platform over the inputs of its ticks. From a platform in which at most one copy polls, it is an admitted
run: it stops at the first tick that is none. -/
def runPlatform : List PlatformIn → Platform → Host.Outcome Platform Fault PlatformRefusal
  | [], p => .next p
  | x :: xs, p =>
    match platformTick x p with
    | .next q => runPlatform xs q
    | .fault f => .fault f
    | .refused r => .refused r

/-- A platform right after power-on (60_exceptions.md R200, 70_reset_and_hazards.md R221): `N_PINS` copies in the reset
state. -/
def Platform.reset : Platform := { pins := List.replicate Config.nPins State.reset }

/-- The draws that one copy gets in a run of its platform. -/
def drawsOfPin (k : Nat) (xs : List PlatformIn) : List TickIn :=
  xs.filterMap fun x => (x.pins[k]?).map (pinDraw x.nowUs)

end Sys2Proof.Machine
end

