-- ==== Sys2Proof/Safety.lean ====
section
/-! DEFINITION. The terms in which claims are stated: what is observed (00_scope.md R7), the invariants the rules
preserve (10_state.md R38), the premises on the draws (60_exceptions.md R196, 42_host_commands.md R161), and runs
over a list of draws. -/

namespace Sys2Proof.Machine

/-- The output ports of a tick (10_state.md R35). -/
structure Outputs where
  reqReady : Bool
  rspValid : Bool
  rspErr : Bool
  rspData : RspWord
  pinOe : Bool
  pinDo : Bool
  pinPu : Bool
  crit : Bool
  deriving DecidableEq, Repr

/-- The outputs a state shows after its last tick (10_state.md R35). -/
def outputs (s : State) : Outputs :=
  { reqReady := s.out.reqReady
    rspValid := s.out.rspValid
    rspErr := s.out.rspErr
    rspData := s.out.rspData
    pinOe := s.pinOe
    pinDo := s.pinDo
    pinPu := s.pinPu
    crit := s.crit }

/-- Every claim's observation requires that no tick was refused (60_exceptions.md R196). -/
def Observable (s : State) : Prop := s.timeRefused = false

/-- The invariants on the registers alone: 10_state.md R38 (a), (b), (c), (f), (g), (h), with R23, R33 and the table
of 41_frame_decoder.md R140. -/
structure RegisterInv (s : State) : Prop where
  /-- R38 (a) and (b): `PENDING` is NONE exactly in IDLE. -/
  pending_none_iff_idle : s.pending = none ↔ s.fsm = .idle
  /-- R33, R139: `CRIT` is 1 exactly in the bit phase. -/
  crit_iff_bit_phase : s.crit = inBitPhase s.fsm
  /-- R38 (c): without a valid reading the cache is zero. -/
  cache_zero_until_valid :
    s.valid = false → s.humInt = 0 ∧ s.humFrac = 0 ∧ s.tempInt = 0 ∧ s.tempFrac = 0
  /-- R23, R38 (f): the bit index never holds 40 or more. -/
  bitIdx_lt : s.bitIdx.toNat < Config.nBits
  /-- R38 (g), (h), R140: the line is driven exactly in the start signal. -/
  driven_iff_start : s.pinOe = true ↔ (s.fsm = .startLow ∨ s.fsm = .startHigh)
  /-- R140: `PIN_DO` is 0 only in START_LOW. -/
  low_iff_startLow : s.pinDo = false ↔ s.fsm = .startLow
  /-- R140: the pull-up stays enabled. -/
  pullup_on : s.pinPu = true

/-- The invariants on the time registers, in a run with no refused tick: "it follows that `now_us - T_MARK >= 0` and
`now_ms - LAST_POLL_MS >= 0`" (60_exceptions.md R196 (a)). -/
def TimeInv (s : State) : Prop :=
  Observable s → s.tMark.toNat ≤ s.inp.nowUs.toNat ∧ s.lastPollMs.toNat ≤ nowMs s.inp.nowUs

/-- `TimeAdmissible`: premises (a) and (b) hold on every tick of a list of draws, after a tick at `prev`
(60_exceptions.md R196). -/
def timesAdmissible (c : Config) : Time → List TickIn → Prop
  | _, [] => True
  | prev, d :: ds => timeAdmissible c prev d.nowUs = true ∧ timesAdmissible c d.nowUs ds

/-- Premise (c) of 60_exceptions.md R196: two consecutive ticks differ by at most `T` µs. -/
def ticksSpaced (T : Nat) : Time → List TickIn → Prop
  | _, [] => True
  | prev, d :: ds => d.nowUs.toNat ≤ prev.toNat + T ∧ ticksSpaced T d.nowUs ds

/-- No tick of the list is a reset. -/
def noReset (ds : List TickIn) : Prop := ∀ d ∈ ds, d.rst = false

/-- A tick that is no reset and keeps the time premises (60_exceptions.md R196): its state rule runs. -/
structure OrdinaryTick (d : TickIn) (s : State) : Prop where
  /-- It is no reset. -/
  not_rst : d.rst = false
  /-- Premise (a): time is not before the previous tick's. -/
  monotone : s.inp.nowUs.toNat ≤ d.nowUs.toNat
  /-- Premise (b): the longest deadline fits 64 bits. -/
  no_wrap : d.nowUs.toNat + s.cfg.tRespDeadlineUs < 2 ^ 64

/-- The state in which the rule of an ordinary tick starts: the inputs sampled, `req_ready` by the state, the
response outputs 0 (41_frame_decoder.md R120), and every register as the last tick left it. -/
def sampled (d : TickIn) (s : State) : State :=
  { s with
    inp := d
    out := { reqReady := decide (s.fsm = .idle), rspValid := false, rspErr := false, rspData := 0 }
    tickNo := s.tickNo + 1 }

/-- Whether a tick accepted a command (42_host_commands.md R160). A tick refused for its time is no exception, a DESIGN
CHOICE (log entry 21). -/
def accepted (s : State) : Bool := s.inp.reqValid && s.out.reqReady

/-- Host duty (a): a request not yet accepted stays on the port unchanged (42_host_commands.md R161). -/
def hostHolds (s : State) (d : TickIn) : Prop :=
  s.inp.reqValid = true → accepted s = false → d.reqValid = true ∧ d.reqCmd = s.inp.reqCmd

/-- The run of the machine over a list of draws, one tick each: `Host.Core.run` on the state with the list
scheduled. -/
def runDraws (ds : List TickIn) (s : State) : Host.Outcome State Fault Refusal :=
  Host.Core.run Sys2Proof.core ds.length { s with draws := ds }

/-- Two states that no output can tell apart: the same but for sequencing registers that no rule reads before it
writes them (10_state.md R23 to R26, R37; 93_implementation_defined.md I20). -/
structure SameButLeftovers (s t : State) : Prop where
  same : t = { s with bitIdx := t.bitIdx, frame := t.frame, tMark := t.tMark, deadline := t.deadline }
  /-- `BIT_IDX` and `FRAME` are read in the bit phase only. -/
  in_bit_phase : inBitPhase s.fsm = true → t.bitIdx = s.bitIdx ∧ t.frame = s.frame
  /-- `T_MARK` is read in START_LOW, START_HIGH and BIT_HIGH only. -/
  mark_read : s.fsm = .startLow ∨ s.fsm = .startHigh ∨ s.fsm = .bitHigh → t.tMark = s.tMark
  /-- `DEADLINE` is read in PRE_LOW, PRE_HIGH and BIT_LOW only. -/
  deadline_read : s.fsm = .preLow ∨ s.fsm = .preHigh ∨ s.fsm = .bitLow → t.deadline = s.deadline

/-- The two ticks of one bit cell whose HIGH is measured: the rising edge `low` µs after the cell began at `t`, and
the falling edge `high` µs after that (40_sampler.md R104, 30_encoding.md R78). -/
def cellDraws (t : Nat) (cell : Nat × Nat) : List TickIn :=
  [ { rst := false, nowUs := BitVec.ofNat Config.timeWidth (t + cell.1), di := true, reqValid := false, reqCmd := 0 },
    { rst := false, nowUs := BitVec.ofNat Config.timeWidth (t + cell.1 + cell.2), di := false, reqValid := false, reqCmd := 0 } ]

/-- The ticks of a train of bit cells, the first of which began at `t`. -/
def trainDraws : Nat → List (Nat × Nat) → List TickIn
  | _, [] => []
  | t, cell :: rest => cellDraws t cell ++ trainDraws (t + cell.1 + cell.2) rest

/-- The time at which a train of cells ends. -/
def trainEnd : Nat → List (Nat × Nat) → Nat
  | t, [] => t
  | t, cell :: rest => trainEnd (t + cell.1 + cell.2) rest

end Sys2Proof.Machine
end

