-- ==== Sys2Proof/Certificates/Slice0/Obligations.lean ====
section
/-! DEFINITION. The statements for the provers. Each holds for every parameter set unless a hypothesis fixes one:
`State.cfg` is arbitrary. `present d s` schedules the draw `d` as the next tick, `OrdinaryTick d s` says that this tick
is no reset and keeps the time premises, and `sampled d s` is the state in which its rule starts. -/

open Sys2Proof Sys2Proof.Machine

/-! ### Encodings -/

/-- 30_encoding.md R71: each code, written out in bits, is read by the decoder as its command. That a number wider
than the three wires is refused is the model's choice (log entry 17). -/
def Obligations.CommandWordsDecode : Prop :=
  decodeTableWord 8 0b000 = some .rsvd0 ∧ decodeTableWord 8 0b001 = some .readTemperature ∧
  decodeTableWord 8 0b010 = some .readHumidity ∧ decodeTableWord 8 0b011 = some .hasValidData ∧
  decodeTableWord 8 0b100 = some .hasStaleData ∧ decodeTableWord 8 0b101 = some .readStatus ∧
  decodeTableWord 8 0b110 = some .rsvd6 ∧ decodeTableWord 8 0b111 = some .rsvd7 ∧
  ∀ w, 8 ≤ w → decodeTableWord 8 w = none

/-- 30_encoding.md R71, R73: each command has one word and each word one command. -/
def Obligations.CommandDecodeEncodeAgree : Prop :=
  (∀ i : Instr, i.wf = true → decode (encode i) = i) ∧ ∀ w : CmdWord, encode (decode w) = w

/-- 30_encoding.md R79, R80, R81 and the source's P4: shifting in the 40 wire bits of any five bytes, from any frame,
leaves frame bit `i` at `FRAME[39 - i]` and each byte in its place. -/
def Obligations.FortyShiftsRebuildTheBytes : Prop :=
  ∀ (b0 b1 b2 b3 b4 : Byte) (f : Frame),
    let bits := frameWireBits [b0, b1, b2, b3, b4]
    let F := bits.foldl shiftIn f
    (∀ i, i < 40 → bits[i]? = some (([b0, b1, b2, b3, b4].getD (i / 8) 0).getLsbD (7 - i % 8))) ∧
    (∀ i, i < 40 → bits[i]? = some (F.getLsbD (39 - i))) ∧
    frameByte F 0 = b0 ∧ frameByte F 1 = b1 ∧ frameByte F 2 = b2 ∧ frameByte F 3 = b3 ∧ frameByte F 4 = b4

/-- 30_encoding.md R82: the value a host computes from a reading's response word is exactly `I + F/10`, from 0 to 280.5,
also for `F > 9`. -/
def Obligations.ReadingValueIsExact : Prop :=
  ∀ I F : Byte, responseValue (readingWord I F) = (I.toNat : Rat) + (F.toNat : Rat) / 10 ∧
    0 ≤ responseValue (readingWord I F) ∧ responseValue (readingWord I F) ≤ 2805 / 10

/-! ### The commands: each completes in every state -/

/-- 42_host_commands.md R165, with the poll start of R164 and the response format of 30_encoding.md R74. -/
def Obligations.ReadTemperaturePollsOrAnswers : Prop :=
  ∀ s : State,
    (s.lastPollMs.toNat + s.cfg.minPollIntervalMs < s.inp.nowUs.toNat / 1000 →
      exec .readTemperature s = .next { s with
        lastPollMs := BitVec.ofNat 64 (s.inp.nowUs.toNat / 1000), pending := some .temp, pinOe := true,
        pinDo := false, tMark := s.inp.nowUs, fsm := .startLow }) ∧
    (¬ s.lastPollMs.toNat + s.cfg.minPollIntervalMs < s.inp.nowUs.toNat / 1000 →
      exec .readTemperature s = .next { s with
        out := { s.out with rspValid := true, rspErr := false, rspData := s.tempInt ++ s.tempFrac } })

/-- 42_host_commands.md R166, with R164 and 30_encoding.md R74. -/
def Obligations.ReadHumidityPollsOrAnswers : Prop :=
  ∀ s : State,
    (s.lastPollMs.toNat + s.cfg.minPollIntervalMs < s.inp.nowUs.toNat / 1000 →
      exec .readHumidity s = .next { s with
        lastPollMs := BitVec.ofNat 64 (s.inp.nowUs.toNat / 1000), pending := some .hum, pinOe := true,
        pinDo := false, tMark := s.inp.nowUs, fsm := .startLow }) ∧
    (¬ s.lastPollMs.toNat + s.cfg.minPollIntervalMs < s.inp.nowUs.toNat / 1000 →
      exec .readHumidity s = .next { s with
        out := { s.out with rspValid := true, rspErr := false, rspData := s.humInt ++ s.humFrac } })

/-- 42_host_commands.md R167: a pure observer; the flag is the whole word (30_encoding.md R75). -/
def Obligations.HasValidDataAnswersValid : Prop :=
  ∀ s : State, exec .hasValidData s = .next { s with
    out := { s.out with rspValid := true, rspErr := false, rspData := if s.valid then 0x0001#16 else 0x0000#16 } }

/-- 42_host_commands.md R168: a pure observer of the staleness predicate of R163. -/
def Obligations.HasStaleDataAnswersStaleness : Prop :=
  ∀ s : State, exec .hasStaleData s = .next { s with
    out := { s.out with
      rspValid := true
      rspErr := false
      rspData := if s.lastPollMs.toNat + s.cfg.minPollIntervalMs < s.inp.nowUs.toNat / 1000
        then 0x0001#16 else 0x0000#16 } }

/-- 42_host_commands.md R170, with the codes of 60_exceptions.md R190. -/
def Obligations.ReadStatusAnswersTheCode : Prop :=
  ∀ s : State, exec .readStatus s = .next { s with
    out := { s.out with
      rspValid := true
      rspErr := false
      rspData := match s.lastStatus with
        | .noPoll => 0x0000#16
        | .ok => 0x0001#16
        | .noResponse => 0x0002#16
        | .handshakeTimeout => 0x0003#16
        | .bitTimeout => 0x0004#16
        | .checksumMismatch => 0x0005#16 } }

/-- 42_host_commands.md R169: the error response is the whole effect of each reserved code, stale or not. -/
def Obligations.ReservedCodesAnswerTheError : Prop :=
  ∀ (s : State) (i : Instr), i = .rsvd0 ∨ i = .rsvd6 ∨ i = .rsvd7 →
    exec i s = .next { s with out := { s.out with rspValid := true, rspErr := true, rspData := 0x0000#16 } }

/-- The frame of the commands (20_memory.md R57; 10_state.md R21: "the only registers a command changes are those its
rule names"): all but six registers stay whatever the command, and those six, too, unless it is a READ that finds the
cache stale. -/
def Obligations.CommandsChangeOnlyWhatTheirRulesName : Prop :=
  ∀ (i : Instr) (s t : State), exec i s = .next t →
    (t.cfg = s.cfg ∧ t.bitIdx = s.bitIdx ∧ t.frame = s.frame ∧ t.deadline = s.deadline ∧
      t.humInt = s.humInt ∧ t.humFrac = s.humFrac ∧ t.tempInt = s.tempInt ∧ t.tempFrac = s.tempFrac ∧
      t.valid = s.valid ∧ t.lastStatus = s.lastStatus ∧ t.pinPu = s.pinPu ∧ t.crit = s.crit ∧
      t.timeRefused = s.timeRefused ∧ t.inp = s.inp ∧ t.draws = s.draws ∧ t.tickNo = s.tickNo) ∧
    ((i = .readTemperature ∨ i = .readHumidity) ∧
        s.lastPollMs.toNat + s.cfg.minPollIntervalMs < s.inp.nowUs.toNat / 1000 ∧ t.out = s.out ∨
      t.fsm = s.fsm ∧ t.lastPollMs = s.lastPollMs ∧ t.pending = s.pending ∧ t.pinOe = s.pinOe ∧
        t.pinDo = s.pinDo ∧ t.tMark = s.tMark)

/-! ### A tick: acceptance, reset, refusal -/

/-- 42_host_commands.md R171, with the acceptance of R160: in IDLE a tick with a request runs the command its code
selects, and a tick without one changes no register. -/
def Obligations.IdleTickRunsTheRequestedCommand : Prop :=
  ∀ (d : TickIn) (s : State), s.fsm = .idle → OrdinaryTick d s →
    (d.reqValid = false → step (present d s) = .next (sampled d s)) ∧
    (d.reqValid = true →
      (d.reqCmd = 0b001#3 → step (present d s) = exec .readTemperature (sampled d s)) ∧
      (d.reqCmd = 0b010#3 → step (present d s) = exec .readHumidity (sampled d s)) ∧
      (d.reqCmd = 0b011#3 → step (present d s) = exec .hasValidData (sampled d s)) ∧
      (d.reqCmd = 0b100#3 → step (present d s) = exec .hasStaleData (sampled d s)) ∧
      (d.reqCmd = 0b101#3 → step (present d s) = exec .readStatus (sampled d s)) ∧
      (d.reqCmd = 0b000#3 → step (present d s) = exec .rsvd0 (sampled d s)) ∧
      (d.reqCmd = 0b110#3 → step (present d s) = exec .rsvd6 (sampled d s)) ∧
      (d.reqCmd = 0b111#3 → step (present d s) = exec .rsvd7 (sampled d s)))

/-- The step runs the command a state offers: the model's own way to place a command (log entry 2). The request stands
on the port at the time of the last tick, which must itself keep premise (b) of 60_exceptions.md R196. -/
def Obligations.StepRunsThePlacedCommand : Prop :=
  ∀ (s : State) (w : Nat) (i : Instr), decodeTableWord 8 w = some i →
    s.inp.nowUs.toNat + s.cfg.tRespDeadlineUs < 2 ^ 64 →
    step (s.withFetchWord 8 w) = exec i (sampled (commandDraw (encode i) s) { s with fsm := .idle })

/-- 70_reset_and_hazards.md R220: a reset tick gives every register its reset value, in every state; the outputs are 0,
and the parameters and `time_refused` stay. (A tick that breaks the time premises is refused even with `rst`, log
entry 5.) -/
def Obligations.ResetTickSetsEveryRegister : Prop :=
  ∀ (d : TickIn) (s : State), d.rst = true → s.inp.nowUs.toNat ≤ d.nowUs.toNat →
    d.nowUs.toNat + s.cfg.tRespDeadlineUs < 2 ^ 64 →
    step (present d s) = .next
      { fsm := .idle, bitIdx := 0, frame := 0, tMark := 0, deadline := 0, pending := none,
        humInt := 0, humFrac := 0, tempInt := 0, tempFrac := 0, valid := false, lastPollMs := 0,
        lastStatus := .noPoll, pinOe := false, pinDo := true, pinPu := true, crit := false,
        cfg := s.cfg, timeRefused := s.timeRefused, inp := d,
        out := { reqReady := false, rspValid := false, rspErr := false, rspData := 0x0000#16 },
        draws := s.draws, tickNo := s.tickNo + 1 }

/-- 70_reset_and_hazards.md R221: "Power-on behaves as one tick with `rst = 1`": the state a run starts from has the
registers and the outputs that any reset tick leaves. -/
def Obligations.PowerOnIsAResetTick : Prop :=
  ∀ (d : TickIn) (s : State), d.rst = true → s.inp.nowUs.toNat ≤ d.nowUs.toNat →
    d.nowUs.toNat + s.cfg.tRespDeadlineUs < 2 ^ 64 →
    step (present d s) = .next { State.reset with
      cfg := s.cfg, timeRefused := s.timeRefused, inp := d, draws := s.draws, tickNo := s.tickNo + 1 }

/-- 60_exceptions.md R196: a tick that breaks premise (a) or (b) sets the mark and changes no register. The outputs of
such a tick and its precedence over `rst` are DEDUCED (log entries 5 and 6). -/
def Obligations.RefusedTickChangesNoRegister : Prop :=
  ∀ (d : TickIn) (s : State),
    (d.nowUs.toNat < s.inp.nowUs.toNat ∨ 2 ^ 64 ≤ d.nowUs.toNat + s.cfg.tRespDeadlineUs) →
    step (present d s) = .next { s with
      timeRefused := true
      inp := d
      out := { reqReady := !d.rst && decide (s.fsm = .idle), rspValid := false, rspErr := false, rspData := 0 }
      tickNo := s.tickNo + 1 }

/-- 60_exceptions.md R196: the mark is set by a tick that breaks (a) or (b), by nothing else, and never cleared. -/
def Obligations.TimeRefusedMarkIsSticky : Prop :=
  ∀ s t : State, step s = .next t →
    (t.timeRefused = true ↔ s.timeRefused = true ∨ t.inp.nowUs.toNat < s.inp.nowUs.toNat ∨
      2 ^ 64 ≤ t.inp.nowUs.toNat + s.cfg.tRespDeadlineUs)

/-- 00_scope.md R6: the next-state function is total: no state and no draw ends a run. -/
def Obligations.EveryStepAnswersANextState : Prop := ∀ s : State, ∃ t, step s = .next t

/-- What every tick does to the ports and the environment's fields, and that it leaves the parameters (10_state.md R34,
R35; the fields `cfg`, `draws` and `tickNo` are the model's, log entries 1 and 3). -/
def Obligations.EveryTickSamplesItsPorts : Prop :=
  ∀ s t : State, step s = .next t →
    t.cfg = s.cfg ∧ t.inp = nextDraw s ∧ t.draws = s.draws.tail ∧ t.tickNo = s.tickNo + 1 ∧
    (t.out.reqReady = true ↔ s.fsm = .idle ∧ t.inp.rst = false)

/-! ### The FSM rules, each on an ordinary tick -/

/-- 41_frame_decoder.md R123. -/
def Obligations.StartLowHoldsThenDrivesHigh : Prop :=
  ∀ (d : TickIn) (s : State), s.fsm = .startLow → OrdinaryTick d s →
    step (present d s) = .next (
      if d.nowUs.toNat - s.tMark.toNat ≥ s.cfg.tStartUs
      then { sampled d s with pinDo := true, tMark := d.nowUs, fsm := .startHigh }
      else sampled d s)

/-- 41_frame_decoder.md R124. -/
def Obligations.StartHighHoldsThenReleases : Prop :=
  ∀ (d : TickIn) (s : State), s.fsm = .startHigh → OrdinaryTick d s →
    step (present d s) = .next (
      if d.nowUs.toNat - s.tMark.toNat ≥ s.cfg.tReleaseUs
      then { sampled d s with pinOe := false, pinPu := true, fsm := .respCheck }
      else sampled d s)

/-- 41_frame_decoder.md R125. -/
def Obligations.RespCheckTakesOneSample : Prop :=
  ∀ (d : TickIn) (s : State), s.fsm = .respCheck → OrdinaryTick d s →
    step (present d s) = .next (
      if d.di = true then failPoll .noResponse (sampled d s)
      else { sampled d s with
        deadline := BitVec.ofNat 64 (d.nowUs.toNat + s.cfg.tRespDeadlineUs), fsm := .preLow })

/-- 41_frame_decoder.md R126. -/
def Obligations.PreLowWaitsForHigh : Prop :=
  ∀ (d : TickIn) (s : State), s.fsm = .preLow → OrdinaryTick d s →
    step (present d s) = .next (
      if d.di = true then { sampled d s with fsm := .preHigh }
      else if d.nowUs.toNat > s.deadline.toNat then failPoll .handshakeTimeout (sampled d s)
      else sampled d s)

/-- 41_frame_decoder.md R127. -/
def Obligations.PreHighWaitsForLowAndEntersTheBits : Prop :=
  ∀ (d : TickIn) (s : State), s.fsm = .preHigh → OrdinaryTick d s →
    step (present d s) = .next (
      if d.di = false then { sampled d s with
        bitIdx := 0, frame := 0, deadline := BitVec.ofNat 64 (d.nowUs.toNat + s.cfg.tBitTimeoutUs),
        crit := true, fsm := .bitLow }
      else if d.nowUs.toNat > s.deadline.toNat then failPoll .handshakeTimeout (sampled d s)
      else sampled d s)

/-- 41_frame_decoder.md R128: for every bit, bit 39 included, and under either last-bit policy. -/
def Obligations.BitLowWaitsForTheRise : Prop :=
  ∀ (d : TickIn) (s : State), s.fsm = .bitLow → OrdinaryTick d s →
    step (present d s) = .next (
      if d.di = true then { sampled d s with tMark := d.nowUs, fsm := .bitHigh }
      else if d.nowUs.toNat > s.deadline.toNat then failPoll .bitTimeout (sampled d s)
      else sampled d s)

/-- 41_frame_decoder.md R129, with the measurement of 40_sampler.md R104 and the zero result of R105. -/
def Obligations.BitHighMeasuresThePulse : Prop :=
  ∀ (d : TickIn) (s : State), s.fsm = .bitHigh → OrdinaryTick d s →
    let w := d.nowUs.toNat - s.tMark.toNat
    step (present d s) = .next (
      if d.di = true ∧ w ≤ s.cfg.tBitTimeoutUs then sampled d s
      else if w = 0 ∨ s.cfg.tBitTimeoutUs < w then zeroResult (sampled d s)
      else acceptBit (classify s.cfg w) (sampled d s))

/-- 41_frame_decoder.md R130. -/
def Obligations.ZeroResultFollowsTheLastBitPolicy : Prop :=
  ∀ s : State,
    (s.bitIdx = 39#6 ∧ s.cfg.lastBitPolicy = .one → zeroResult s = acceptBit true s) ∧
    (¬ (s.bitIdx = 39#6 ∧ s.cfg.lastBitPolicy = .one) → zeroResult s = failPoll .bitTimeout s)

/-- 41_frame_decoder.md R131. -/
def Obligations.ComparatorUsesTheThreshold : Prop :=
  ∀ (c : Config) (r : Nat),
    (classify c r = true ↔ c.thresholdCmp = .gt ∧ r > c.tThresholdUs ∨ c.thresholdCmp = .ge ∧ r ≥ c.tThresholdUs)

/-- 41_frame_decoder.md R132 and R133: the frame shifts left by one, the bit enters at the bottom; before bit 39 the next
cell begins, at bit 39 the checksum is tested on the frame with the bit just appended. -/
def Obligations.AcceptBitShiftsAndAdvances : Prop :=
  ∀ (b : Bool) (s : State),
    let F := s.frame <<< 1 ||| (if b then 1#40 else 0#40)
    acceptBit b s =
      if s.bitIdx.toNat < 39 then { s with
        frame := F, bitIdx := s.bitIdx + 1,
        deadline := BitVec.ofNat 64 (s.inp.nowUs.toNat + s.cfg.tBitTimeoutUs), fsm := .bitLow }
      else checkFrame F { s with frame := F, crit := false }

/-- 41_frame_decoder.md R134: the sum of bytes 0 to 3, modulo 256, against byte 4. -/
def Obligations.ChecksumDecidesTheFrame : Prop :=
  ∀ (b0 b1 b2 b3 b4 : Byte) (s : State),
    checkFrame (frameOfBytes b0 b1 b2 b3 b4) s =
      if (b0.toNat + b1.toNat + b2.toNat + b3.toNat) % 256 = b4.toNat then success b0 b1 b2 b3 s
      else failPoll .checksumMismatch s

/-- 41_frame_decoder.md R135, and the answer of R136 from the new reading. -/
def Obligations.SuccessWritesTheReadingAndAnswers : Prop :=
  ∀ (b0 b1 b2 b3 : Byte) (k : ReadKind) (s : State), s.pending = some k →
    success b0 b1 b2 b3 s = { s with
      humInt := b0, humFrac := b1, tempInt := b2, tempFrac := b3, valid := true, lastStatus := .ok,
      pending := none, fsm := .idle,
      out := { s.out with
        rspValid := true
        rspErr := false
        rspData := match k with
          | .temp => b2 ++ b3
          | .hum => b0 ++ b1 } }

/-- 41_frame_decoder.md R137, and the answer of R136 from the unchanged cache. -/
def Obligations.FailureKeepsTheCacheAndAnswers : Prop :=
  ∀ (code : Status) (k : ReadKind) (s : State), s.pending = some k →
    failPoll code s = { s with
      lastStatus := code, crit := false, pinOe := false, pinPu := true, pending := none, fsm := .idle,
      out := { s.out with
        rspValid := true
        rspErr := false
        rspData := match k with
          | .temp => s.tempInt ++ s.tempFrac
          | .hum => s.humInt ++ s.humFrac } }

/-! ### Invariants -/

/-- The invariants hold in the state a run starts from (10_state.md R38, 60_exceptions.md R196). -/
def Obligations.InvariantsHoldAtReset : Prop := RegisterInv State.reset ∧ TimeInv State.reset

/-- 10_state.md R38 (a), (b), (c), (f), (g), (h), R23, R33 and the table of 41_frame_decoder.md R140: every step keeps
them, whatever the draw. -/
def Obligations.EveryStepKeepsTheRegisterInvariants : Prop :=
  ∀ s t : State, RegisterInv s → step s = .next t → RegisterInv t

/-- 60_exceptions.md R196 (a): "`now_us - T_MARK >= 0` and `now_ms - LAST_POLL_MS >= 0`" in a run with no refused tick. -/
def Obligations.EveryStepKeepsTheTimeInvariant : Prop :=
  ∀ s t : State, TimeInv s → step s = .next t → TimeInv t

/-- 60_exceptions.md R196 (b): the two deadlines the rules store are the sums in naturals. -/
def Obligations.StoredDeadlinesDoNotWrap : Prop :=
  ∀ (d : TickIn) (s : State), s.cfg.wf = true → OrdinaryTick d s →
    (deadlineAfter d.nowUs s.cfg.tRespDeadlineUs).toNat = d.nowUs.toNat + s.cfg.tRespDeadlineUs ∧
    (deadlineAfter d.nowUs s.cfg.tBitTimeoutUs).toNat = d.nowUs.toNat + s.cfg.tBitTimeoutUs

/-! ### Whole-machine rules -/

/-- 10_state.md R22: every state names its successors; between resets FSM moves along these edges only
(41_frame_decoder.md R121, R123 to R137, R141). -/
def Obligations.FsmMovesAlongTheNamedEdges : Prop :=
  ∀ s t : State, step s = .next t → t.inp.rst = false → t.fsm ≠ s.fsm →
    (s.fsm, t.fsm) ∈ [(Fsm.idle, Fsm.startLow), (.startLow, .startHigh), (.startHigh, .respCheck),
      (.respCheck, .idle), (.respCheck, .preLow), (.preLow, .idle), (.preLow, .preHigh), (.preHigh, .idle),
      (.preHigh, .bitLow), (.bitLow, .idle), (.bitLow, .bitHigh), (.bitHigh, .idle), (.bitHigh, .bitLow)]

/-- 41_frame_decoder.md R141: only a READ command, accepted when stale, starts a poll; 42_host_commands.md R164 says what
it writes. -/
def Obligations.OnlyAStaleReadLeavesIdle : Prop :=
  ∀ s t : State, step s = .next t → s.fsm = .idle → t.fsm ≠ .idle →
    t.inp.rst = false ∧ t.inp.reqValid = true ∧
    s.lastPollMs.toNat + s.cfg.minPollIntervalMs < t.inp.nowUs.toNat / 1000 ∧
    (decode t.inp.reqCmd = .readTemperature ∧ t.pending = some .temp ∨
      decode t.inp.reqCmd = .readHumidity ∧ t.pending = some .hum) ∧
    t.fsm = .startLow ∧ t.lastPollMs.toNat = t.inp.nowUs.toNat / 1000 ∧ t.tMark = t.inp.nowUs ∧
    t.pinOe = true ∧ t.pinDo = false ∧ t.out.rspValid = false

/-- 10_state.md R30, 41_frame_decoder.md R138: `LAST_POLL_MS` is written at a poll's start and by reset, nowhere else. -/
def Obligations.LastPollIsWrittenOnlyAtAPollStart : Prop :=
  ∀ s t : State, step s = .next t → t.lastPollMs ≠ s.lastPollMs →
    t.inp.rst = true ∨
    (s.fsm = .idle ∧ t.fsm = .startLow ∧ t.lastPollMs.toNat = t.inp.nowUs.toNat / 1000 ∧
      s.lastPollMs.toNat + s.cfg.minPollIntervalMs < t.lastPollMs.toNat)

/-- 10_state.md R28, R29, 20_memory.md R56: a tick that changes a reading register or `VALID` is a reset, or the tick that
completes bit 39 with a passing checksum; then all of them are written whole, from the completed frame. -/
def Obligations.ReadingsChangeOnlyOnAValidFrame : Prop :=
  ∀ s t : State, step s = .next t →
    (t.humInt ≠ s.humInt ∨ t.humFrac ≠ s.humFrac ∨ t.tempInt ≠ s.tempInt ∨ t.tempFrac ≠ s.tempFrac ∨
      t.valid ≠ s.valid) →
    t.inp.rst = true ∨
    (s.fsm = .bitHigh ∧ 39 ≤ s.bitIdx.toNat ∧ t.fsm = .idle ∧ t.lastStatus = .ok ∧ t.valid = true ∧
      t.frame = frameOfBytes t.humInt t.humFrac t.tempInt t.tempFrac (frameByte t.frame 4) ∧
      (t.humInt.toNat + t.humFrac.toNat + t.tempInt.toNat + t.tempFrac.toNat) % 256 = (frameByte t.frame 4).toNat)

/-- 10_state.md R31, 60_exceptions.md R191: `LAST_STATUS` is written by reset and by the end of a poll, nowhere else, and
a poll never ends with the code NONE. -/
def Obligations.LastStatusIsWrittenOnlyAtAPollEnd : Prop :=
  ∀ s t : State, step s = .next t → t.inp.rst = false →
    (t.lastStatus ≠ s.lastStatus → s.fsm ≠ .idle ∧ t.fsm = .idle) ∧
    (s.fsm ≠ .idle → t.fsm = .idle → t.lastStatus ≠ .noPoll)

/-- 10_state.md R38 (d), (e): between resets `VALID` never goes from 1 to 0, and `LAST_POLL_MS` never decreases. -/
def Obligations.BetweenResetsValidStaysAndLastPollGrows : Prop :=
  ∀ s t : State, step s = .next t → t.inp.rst = false →
    (s.valid = true → t.valid = true) ∧ s.lastPollMs.toNat ≤ t.lastPollMs.toNat

/-- 42_host_commands.md R162, R173: outside reset and refused ticks, a tick responds exactly if it accepts a command that
does not start a poll, or ends a poll. -/
def Obligations.ATickRespondsExactlyOnCompletion : Prop :=
  ∀ (d : TickIn) (s t : State), RegisterInv s → OrdinaryTick d s → step (present d s) = .next t →
    (t.out.rspValid = true ↔
      s.fsm = .idle ∧ d.reqValid = true ∧ t.fsm = .idle ∨ s.fsm ≠ .idle ∧ t.fsm = .idle)

/-- 30_encoding.md R77, 42_host_commands.md R162, R169, R171, 60_exceptions.md R192, 70_reset_and_hazards.md R220: `rsp_err`
is 1 exactly on an ordinary tick that accepts a reserved code, and then `rsp_data` is 0; so no reset and no poll failure
sets it. That a tick refused for its time does not set it is DEDUCED (log entry 6). -/
def Obligations.ErrorOnlyForAnAcceptedReservedCode : Prop :=
  ∀ (d : TickIn) (s t : State), step (present d s) = .next t →
    (t.out.rspErr = true ↔
      OrdinaryTick d s ∧ s.fsm = .idle ∧ d.reqValid = true ∧
        (d.reqCmd = 0b000#3 ∨ d.reqCmd = 0b110#3 ∨ d.reqCmd = 0b111#3)) ∧
    (t.out.rspErr = true → t.out.rspValid = true ∧ t.out.rspData = 0x0000#16)

/-- 42_host_commands.md R160, R172: while a poll runs, a request has no effect at all. -/
def Obligations.RequestsAreIgnoredWhileAPollRuns : Prop :=
  ∀ (d : TickIn) (v : Bool) (c : CmdWord) (s t : State), s.fsm ≠ .idle → step (present d s) = .next t →
    step (present { d with reqValid := v, reqCmd := c } s) =
      .next { t with inp := { d with reqValid := v, reqCmd := c } }

/-- 41_frame_decoder.md R140, 60_exceptions.md R197: in IDLE, START_LOW and START_HIGH the line's level has no effect. -/
def Obligations.TheLineIsIgnoredWhereItIsNotRead : Prop :=
  ∀ (d : TickIn) (b : Bool) (s t : State), s.fsm = .idle ∨ s.fsm = .startLow ∨ s.fsm = .startHigh →
    step (present d s) = .next t →
    step (present { d with di := b } s) = .next { t with inp := { d with di := b } }

/-- 41_frame_decoder.md R128, R130: `LAST_BIT_POLICY` has no effect but on the HIGH of bit 39. -/
def Obligations.TheLastBitPolicyTouchesOnlyBit39 : Prop :=
  ∀ (p : LastBitPolicy) (s t : State), s.fsm ≠ .bitHigh ∨ s.bitIdx ≠ 39#6 → step s = .next t →
    step { s with cfg := { s.cfg with lastBitPolicy := p } } =
      .next { t with cfg := { t.cfg with lastBitPolicy := p } }

/-- 60_exceptions.md R198, the source's P5: every state but IDLE is left by the first ordinary tick at which its time is
up, whatever the line shows. -/
def Obligations.EveryBusyStateIsLeftWhenItsTimeIsUp : Prop :=
  ∀ (d : TickIn) (s : State), OrdinaryTick d s →
    (s.fsm = .startLow ∧ s.tMark.toNat + s.cfg.tStartUs ≤ d.nowUs.toNat ∨
      s.fsm = .startHigh ∧ s.tMark.toNat + s.cfg.tReleaseUs ≤ d.nowUs.toNat ∨
      s.fsm = .respCheck ∨
      (s.fsm = .preLow ∨ s.fsm = .preHigh ∨ s.fsm = .bitLow) ∧ s.deadline.toNat < d.nowUs.toNat ∨
      s.fsm = .bitHigh ∧ s.tMark.toNat + s.cfg.tBitTimeoutUs < d.nowUs.toNat) →
    ∃ t, step (present d s) = .next t ∧ t.fsm ≠ s.fsm

/-- 60_exceptions.md R197 with 41_frame_decoder.md R125: with no sensor on the line, the released line reads HIGH, and the
response check reports NO_RESPONSE. -/
def Obligations.NoSensorMeansNoResponse : Prop :=
  ∀ (d : TickIn) (s : State), RegisterInv s → s.fsm = .respCheck → OrdinaryTick d s →
    lineLevel s false = some d.di →
    step (present d s) = .next (failPoll .noResponse (sampled d s))

/-- 70_reset_and_hazards.md R226 (a), (b), under GT: with the measured width within `T` of the real width `W`, a 0 pulse is
classified 0 and a 1 pulse 1. -/
def Obligations.ClassificationHasItsMargins : Prop :=
  ∀ (c : Config) (T W w : Nat), c.thresholdCmp = .gt → w < W + T → W < w + T →
    (W + T ≤ c.tThresholdUs → classify c w = false) ∧ (c.tThresholdUs + T ≤ W → classify c w = true)

/-- 60_exceptions.md R200: the copies of a platform do not interact: with one input record for each, every copy takes the
step of its own state on its own inputs and the shared time. (Whether such a tick is admitted is said by
`TwoPollsAtOnceAreNotAdmitted`.) -/
def Obligations.PlatformCopiesDoNotInteract : Prop :=
  ∀ (now : Time) (ins : List PinIn) (p : Platform), ins.length = p.pins.length →
    ∃ ts, tickCopies now ins p.pins = .next ts ∧ ts.length = p.pins.length ∧
      ∀ (k : Nat) (i : PinIn) (s : State), ins[k]? = some i → p.pins[k]? = some s →
        ∃ t, ts[k]? = some t ∧ step (present (pinDraw now i) s) = .next t

/-! ### Runs -/

/-- 70_reset_and_hazards.md R225: after a reset, while `now_ms` is at most `MIN_POLL_INTERVAL_MS`, no poll starts whatever
the host and the line do, `VALID` stays 0, and every READ answers `0x0000` at once. -/
def Obligations.NoPollBeforeTheFirstInterval : Prop :=
  ∀ (d : TickIn) (ds : List TickIn) (s r t : State),
    d.rst = true → s.inp.nowUs.toNat ≤ d.nowUs.toNat → d.nowUs.toNat + s.cfg.tRespDeadlineUs < 2 ^ 64 →
    step (present d s) = .next r → (∀ e ∈ ds, e.nowUs.toNat / 1000 ≤ s.cfg.minPollIntervalMs) →
    runDraws ds r = .next t →
    t.fsm = .idle ∧ t.pinOe = false ∧ t.lastPollMs = 0 ∧ t.valid = false ∧
    (t.timeRefused = false → t.inp.rst = false → t.inp.reqValid = true →
      decode t.inp.reqCmd = .readTemperature ∨ decode t.inp.reqCmd = .readHumidity →
      t.out.rspValid = true ∧ t.out.rspErr = false ∧ t.out.rspData = 0x0000#16)

/-- 70_reset_and_hazards.md R222, 60_exceptions.md R203: a reset abandons the poll in progress: as long as the host then
requests nothing, no response comes, and every register stays at its reset value. -/
def Obligations.AResetAbandonsThePoll : Prop :=
  ∀ (d : TickIn) (ds : List TickIn) (s r t : State),
    d.rst = true → s.inp.nowUs.toNat ≤ d.nowUs.toNat → d.nowUs.toNat + s.cfg.tRespDeadlineUs < 2 ^ 64 →
    step (present d s) = .next r → (∀ e ∈ ds, e.reqValid = false) → runDraws ds r = .next t →
    t.out.rspValid = false ∧
    t = { State.reset with
      cfg := s.cfg, timeRefused := t.timeRefused, inp := t.inp, out := t.out, draws := [], tickNo := t.tickNo }

/-- 42_host_commands.md R163, 70_reset_and_hazards.md R228, the source's P1: in any run without a reset, the next poll
start is more than `MIN_POLL_INTERVAL_MS` after the last one, and until then `LAST_POLL_MS` stays. -/
def Obligations.PollStartsAreTheIntervalApart : Prop :=
  ∀ (ds : List TickIn) (s t : State), noReset ds → runDraws ds s = .next t →
    t.lastPollMs = s.lastPollMs ∨ s.lastPollMs.toNat + s.cfg.minPollIntervalMs < t.lastPollMs.toNat

/-- 42_host_commands.md R174 (b), (c): a poll that has just started, run without a reset up to the tick that ends it, was
either a success, with the whole new reading from a frame whose checksum passes, or a failure that leaves the readings
and `VALID`; either way that tick answers the READ from the readings it leaves. -/
def Obligations.APollIsASuccessOrLeavesTheCache : Prop :=
  ∀ (ds : List TickIn) (d : TickIn) (k : ReadKind) (s u t : State),
    RegisterInv s → s.fsm = .startLow → s.pending = some k → noReset (ds ++ [d]) →
    runDraws ds s = .next u → u.fsm ≠ .idle → u.lastPollMs = s.lastPollMs →
    step (present d u) = .next t → t.fsm = .idle →
    t.lastPollMs = s.lastPollMs ∧ t.pending = none ∧ t.out.rspValid = true ∧ t.out.rspErr = false ∧
    t.out.rspData = (match k with
      | .temp => t.tempInt ++ t.tempFrac
      | .hum => t.humInt ++ t.humFrac) ∧
    ((t.lastStatus = .ok ∧ t.valid = true ∧
        t.frame = frameOfBytes t.humInt t.humFrac t.tempInt t.tempFrac (frameByte t.frame 4) ∧
        (t.humInt.toNat + t.humFrac.toNat + t.tempInt.toNat + t.tempFrac.toNat) % 256 =
          (frameByte t.frame 4).toNat) ∨
      ((t.lastStatus = .noResponse ∨ t.lastStatus = .handshakeTimeout ∨ t.lastStatus = .bitTimeout ∨
          t.lastStatus = .checksumMismatch) ∧
        t.humInt = s.humInt ∧ t.humFrac = s.humFrac ∧ t.tempInt = s.tempInt ∧ t.tempFrac = s.tempFrac ∧
        t.valid = s.valid))

/-- 41_frame_decoder.md R128 to R136: from the entry to the bit phase, forty cells whose HIGH widths lie from 1 to
`T_BIT_TIMEOUT_US`, at any LOW widths, sampled at their edges, end the poll with the frame of the classified widths, the
checksum decides, and the READ is answered. -/
def Obligations.FortyPulsesDecodeToTheirFrame : Prop :=
  ∀ (cells : List (Nat × Nat)) (k : ReadKind) (s : State),
    s.fsm = .bitLow → s.bitIdx = 0 → s.pending = some k → cells.length = 40 →
    (∀ c ∈ cells, 0 < c.2 ∧ c.2 ≤ s.cfg.tBitTimeoutUs) →
    trainEnd s.inp.nowUs.toNat cells + s.cfg.tRespDeadlineUs < 2 ^ 64 →
    let F := (cells.map fun c => classify s.cfg c.2).foldl shiftIn s.frame
    let passes := (frameByte F 0).toNat + (frameByte F 1).toNat + (frameByte F 2).toNat + (frameByte F 3).toNat
    ∃ t, runDraws (trainDraws s.inp.nowUs.toNat cells) s = .next t ∧
      t.frame = F ∧ t.fsm = .idle ∧ t.pending = none ∧ t.crit = false ∧ t.lastPollMs = s.lastPollMs ∧
      t.inp.nowUs.toNat = trainEnd s.inp.nowUs.toNat cells ∧ t.timeRefused = s.timeRefused ∧
      t.out.rspValid = true ∧ t.out.rspErr = false ∧
      (passes % 256 = (frameByte F 4).toNat →
        t.lastStatus = .ok ∧ t.valid = true ∧ t.humInt = frameByte F 0 ∧ t.humFrac = frameByte F 1 ∧
        t.tempInt = frameByte F 2 ∧ t.tempFrac = frameByte F 3 ∧
        t.out.rspData = (match k with
          | .temp => frameByte F 2 ++ frameByte F 3
          | .hum => frameByte F 0 ++ frameByte F 1)) ∧
      (passes % 256 ≠ (frameByte F 4).toNat →
        t.lastStatus = .checksumMismatch ∧ t.valid = s.valid ∧ t.humInt = s.humInt ∧ t.humFrac = s.humFrac ∧
        t.tempInt = s.tempInt ∧ t.tempFrac = s.tempFrac ∧
        t.out.rspData = (match k with
          | .temp => s.tempInt ++ s.tempFrac
          | .hum => s.humInt ++ s.humFrac))

/-- 70_reset_and_hazards.md R232: under the default parameters, with ticks at most `T` µs apart, every tick that finds the
poll still running comes at most 534038 + 46·T µs after the tick that accepted its READ. That a poll still runs is said
by `LAST_POLL_MS`, which a later poll would have moved on. -/
def Obligations.APollEndsWithinItsWorstCase : Prop :=
  ∀ (T : Nat) (ds : List TickIn) (d : TickIn) (s t : State),
    s.cfg = Config.hardware → s.fsm = .startLow → s.tMark = s.inp.nowUs →
    noReset (ds ++ [d]) → timesAdmissible s.cfg s.inp.nowUs (ds ++ [d]) → ticksSpaced T s.inp.nowUs (ds ++ [d]) →
    runDraws ds s = .next t → t.fsm ≠ .idle → t.lastPollMs = s.lastPollMs →
    d.nowUs.toNat ≤ s.inp.nowUs.toNat + 534038 + 46 * T

/-- 10_state.md R37, 93_implementation_defined.md I20: what earlier polls left in `BIT_IDX`, `FRAME`, `T_MARK` and
`DEADLINE` is never observable: two states that differ in it alone give the same outputs on every tick of every run. -/
def Obligations.LeftoverSequencingIsUnobservable : Prop :=
  ∀ (ds : List TickIn) (s t s' : State), SameButLeftovers s t → runDraws ds s = .next s' →
    ∃ t', runDraws ds t = .next t' ∧ SameButLeftovers s' t' ∧ outputs t' = outputs s'

/-! ### Platforms -/

/-- 60_exceptions.md R200, 93_implementation_defined.md I13: a platform's tick after which two copies poll is outside the
admitted runs and refused by name, any other tick is admitted. Two clauses are the model's own reading (log entry 14):
that every other tick is admitted, so also one on which one copy's poll ends and another's begins, is DEDUCED from
00_scope.md R14, and R200 and I13 do not say it; that an input list of another length than the platform is refused is
the model's choice. -/
def Obligations.TwoPollsAtOnceAreNotAdmitted : Prop :=
  ∀ (x : PlatformIn) (p : Platform),
    (x.pins.length ≠ p.pins.length → platformTick x p = .refused .notOneInputPerPin) ∧
    ∀ ts : List State, tickCopies x.nowUs x.pins p.pins = .next ts →
      ((∃ (j k : Nat) (s t : State), j ≠ k ∧ ts[j]? = some s ∧ ts[k]? = some t ∧ s.fsm ≠ .idle ∧ t.fsm ≠ .idle) →
        platformTick x p = .refused .concurrentPolls) ∧
      ((∀ (j k : Nat) (s t : State), ts[j]? = some s → ts[k]? = some t → s.fsm ≠ .idle → t.fsm ≠ .idle → j = k) →
        platformTick x p = .next ⟨ts⟩)

/-- 60_exceptions.md R200: in every admitted run of a platform at most one copy polls, no copy is lost, and each copy runs
as it would alone on its own draws: no other copy has any effect on it. -/
def Obligations.AnAdmittedPlatformRunIsEachCopysOwnRun : Prop :=
  ∀ (xs : List PlatformIn) (p q : Platform), platformAdmitted p = true → runPlatform xs p = .next q →
    platformAdmitted q = true ∧ (platformWf p → platformWf q) ∧
    ∀ (k : Nat) (s : State), p.pins[k]? = some s →
      (drawsOfPin k xs).length = xs.length ∧
      ∃ t, q.pins[k]? = some t ∧ t.draws = s.draws ∧
        runDraws (drawsOfPin k xs) s = .next { t with draws := [] }
end

