-- ==== Sys2Proof/Laws/Encoding.lean ====
section
/-! SUPPORT. The bits and bytes of a frame, and the assembler's shift (30_encoding.md R79 to R81, 41_frame_decoder.md
R132, R134). -/

namespace Sys2Proof.Machine

/-- The shift in terms of single bits: the new bit at the bottom, every other bit one place up. -/
theorem shiftIn_getLsbD (f : Frame) (b : Bool) (i : Nat) :
    (shiftIn f b).getLsbD i = if i = 0 then b else decide (i < 40) && f.getLsbD (i - 1) := by
  unfold shiftIn
  rw [show (f.extractLsb' 0 39 ++ BitVec.ofBool b).getLsbD i = _ from BitVec.getLsbD_append]
  rcases i with _ | i
  · simp
  · rw [if_neg (by omega), if_neg (by omega)]
    simp [show (i + 1 < 40) = (i < 39) from propext (by omega)]

/-- The five bytes of the frame made of five bytes. -/
theorem frameByte_frameOfBytes (b0 b1 b2 b3 b4 : Byte) :
    frameByte (frameOfBytes b0 b1 b2 b3 b4) 0 = b0 ∧ frameByte (frameOfBytes b0 b1 b2 b3 b4) 1 = b1 ∧
    frameByte (frameOfBytes b0 b1 b2 b3 b4) 2 = b2 ∧ frameByte (frameOfBytes b0 b1 b2 b3 b4) 3 = b3 ∧
    frameByte (frameOfBytes b0 b1 b2 b3 b4) 4 = b4 := by
  unfold frameByte frameOfBytes
  refine ⟨?_, ?_, ?_, ?_, ?_⟩ <;>
  · ext i hi
    simp only [BitVec.getElem_extractLsb', BitVec.getLsbD_append]
    repeat (first | rw [if_pos (by omega)] | rw [if_neg (by omega)])
    rw [BitVec.getLsbD_eq_getElem (by omega)]
    congr 1
    try omega

/-- A frame is made of its five bytes. -/
theorem frameOfBytes_frameByte (f : Frame) :
    frameOfBytes (frameByte f 0) (frameByte f 1) (frameByte f 2) (frameByte f 3) (frameByte f 4) = f := by
  unfold frameByte frameOfBytes
  ext i hi
  simp only [BitVec.getElem_append, BitVec.getElem_extractLsb']
  split_ifs <;> rw [← BitVec.getLsbD_eq_getElem] <;> congr 1 <;> omega

theorem checksumOk_iff (f : Frame) :
    checksumOk f = true ↔
      ((frameByte f 0).toNat + (frameByte f 1).toNat + (frameByte f 2).toNat + (frameByte f 3).toNat) % 256 =
        (frameByte f 4).toNat := by
  unfold checksumOk
  exact decide_eq_true_iff

theorem length_byteWireBits (b : Byte) : (byteWireBits b).length = 8 := rfl

end Sys2Proof.Machine
end

