-- ==== Sys2Proof/Laws/Sampler.lean ====
section
/-! SUPPORT. What the sampler's primitives and the time premises can answer, said once, in terms of naturals. -/

namespace Sys2Proof.Machine

/-- A time fits its `TIME_WIDTH` bits, as a number for `omega`. -/
theorem time_toNat_lt (t : Time) : t.toNat < 2 ^ 64 := t.isLt

/-- A number that fits `TIME_WIDTH` bits is the value of its time. -/
theorem toNat_ofNat_time (n : Nat) (h : n < 2 ^ 64) : (BitVec.ofNat Config.timeWidth n).toNat = n := by
  rw [BitVec.toNat_ofNat]
  exact Nat.mod_eq_of_lt h

theorem timeAdmissible_iff (c : Config) (prev now : Time) :
    timeAdmissible c prev now = true ↔
      prev.toNat ≤ now.toNat ∧ now.toNat + c.tRespDeadlineUs < 2 ^ 64 := by
  simp only [timeAdmissible, Bool.and_eq_true, decide_eq_true_eq]

theorem timeAdmissible_eq_false_iff (c : Config) (prev now : Time) :
    timeAdmissible c prev now = false ↔
      now.toNat < prev.toNat ∨ 2 ^ 64 ≤ now.toNat + c.tRespDeadlineUs := by
  rw [← Bool.not_eq_true, timeAdmissible_iff]
  omega

theorem isStale_iff (s : State) :
    isStale s = true ↔ s.lastPollMs.toNat + s.cfg.minPollIntervalMs < s.inp.nowUs.toNat / 1000 := by
  unfold isStale nowMs
  exact decide_eq_true_iff

/-- Milliseconds fit the register they are stored in. -/
theorem toNat_ofNat_nowMs (now : Time) : (BitVec.ofNat Config.timeWidth (nowMs now)).toNat = nowMs now :=
  toNat_ofNat_time _ (Nat.lt_of_le_of_lt (Nat.div_le_self _ _) (time_toNat_lt now))

theorem delayElapsed_iff (d : Nat) (now mark : Time) :
    delayElapsed d now mark = true ↔ now.toNat - mark.toNat ≥ d := by
  simp only [delayElapsed, decide_eq_true_eq]

theorem waitForLevel_eq_success_iff (e di : Bool) (now dl : Time) :
    waitForLevel e di now dl = .success ↔ di = e := by
  unfold waitForLevel
  split
  · simp only [*]
  · split <;> simp only [*, reduceCtorEq]

theorem waitForLevel_eq_timeout_iff (e di : Bool) (now dl : Time) :
    waitForLevel e di now dl = .timeout ↔ di ≠ e ∧ now.toNat > dl.toNat := by
  unfold waitForLevel
  split
  · simp [*]
  · split <;> simp [*]

theorem waitForLevel_eq_stay_iff (e di : Bool) (now dl : Time) :
    waitForLevel e di now dl = .stay ↔ di ≠ e ∧ now.toNat ≤ dl.toNat := by
  unfold waitForLevel
  split
  · simp [*]
  · next hd =>
    split
    · next ht => simp [hd, ht]
    · next ht =>
      simp only [hd, ne_eq, not_false_eq_true, true_and, true_iff]
      omega

/-- The pulse goes on: the line is still HIGH within the timeout. -/
theorem measurePulseWidth_eq_none_iff (t : Nat) (di : Bool) (now mark : Time) :
    measurePulseWidth t di now mark = none ↔ di = true ∧ now.toNat - mark.toNat ≤ t := by
  unfold measurePulseWidth
  cases di <;> simp

/-- The zero result: no width at all, or one over the timeout, edge or not (40_sampler.md R105). -/
theorem measurePulseWidth_eq_zero_iff (t : Nat) (di : Bool) (now mark : Time) :
    measurePulseWidth t di now mark = some 0 ↔
      t < now.toNat - mark.toNat ∨ di = false ∧ now.toNat - mark.toNat = 0 := by
  unfold measurePulseWidth
  cases di
  · by_cases h : now.toNat - mark.toNat ≤ t
    · simp only [h, if_true, Option.some.injEq, true_and]; omega
    · simp [h]; omega
  · by_cases h : now.toNat - mark.toNat > t <;> simp [h]

/-- A measured width: the falling edge came in time, after the rising edge. -/
theorem measurePulseWidth_eq_pos_iff (t r : Nat) (di : Bool) (now mark : Time) :
    measurePulseWidth t di now mark = some (r + 1) ↔
      di = false ∧ now.toNat - mark.toNat = r + 1 ∧ r + 1 ≤ t := by
  unfold measurePulseWidth
  cases di
  · by_cases h : now.toNat - mark.toNat ≤ t
    · simp only [h, if_true, Option.some.injEq, true_and]; omega
    · simp [h]; omega
  · by_cases h : now.toNat - mark.toNat > t <;> simp [h]

theorem toNat_deadlineAfter (now : Time) (d : Nat) (h : now.toNat + d < 2 ^ 64) :
    (deadlineAfter now d).toNat = now.toNat + d :=
  toNat_ofNat_time _ h

end Sys2Proof.Machine
end

