-- ==== Sys2Proof/Laws/State.lean ====
section
/-! SUPPORT. One lemma per field per update of the state, so that no proof unfolds a record update. -/

namespace Sys2Proof.Machine

/-! ### `present` -/

@[simp] theorem present_cfg (d : TickIn) (s : State) : (present d s).cfg = s.cfg := rfl
@[simp] theorem present_fsm (d : TickIn) (s : State) : (present d s).fsm = s.fsm := rfl
@[simp] theorem present_bitIdx (d : TickIn) (s : State) : (present d s).bitIdx = s.bitIdx := rfl
@[simp] theorem present_frame (d : TickIn) (s : State) : (present d s).frame = s.frame := rfl
@[simp] theorem present_tMark (d : TickIn) (s : State) : (present d s).tMark = s.tMark := rfl
@[simp] theorem present_deadline (d : TickIn) (s : State) : (present d s).deadline = s.deadline := rfl
@[simp] theorem present_pending (d : TickIn) (s : State) : (present d s).pending = s.pending := rfl
@[simp] theorem present_humInt (d : TickIn) (s : State) : (present d s).humInt = s.humInt := rfl
@[simp] theorem present_humFrac (d : TickIn) (s : State) : (present d s).humFrac = s.humFrac := rfl
@[simp] theorem present_tempInt (d : TickIn) (s : State) : (present d s).tempInt = s.tempInt := rfl
@[simp] theorem present_tempFrac (d : TickIn) (s : State) : (present d s).tempFrac = s.tempFrac := rfl
@[simp] theorem present_valid (d : TickIn) (s : State) : (present d s).valid = s.valid := rfl
@[simp] theorem present_lastPollMs (d : TickIn) (s : State) : (present d s).lastPollMs = s.lastPollMs := rfl
@[simp] theorem present_lastStatus (d : TickIn) (s : State) : (present d s).lastStatus = s.lastStatus := rfl
@[simp] theorem present_pinOe (d : TickIn) (s : State) : (present d s).pinOe = s.pinOe := rfl
@[simp] theorem present_pinDo (d : TickIn) (s : State) : (present d s).pinDo = s.pinDo := rfl
@[simp] theorem present_pinPu (d : TickIn) (s : State) : (present d s).pinPu = s.pinPu := rfl
@[simp] theorem present_crit (d : TickIn) (s : State) : (present d s).crit = s.crit := rfl
@[simp] theorem present_timeRefused (d : TickIn) (s : State) : (present d s).timeRefused = s.timeRefused := rfl
@[simp] theorem present_inp (d : TickIn) (s : State) : (present d s).inp = s.inp := rfl
@[simp] theorem present_out (d : TickIn) (s : State) : (present d s).out = s.out := rfl
@[simp] theorem present_draws (d : TickIn) (s : State) : (present d s).draws = d :: s.draws := rfl
@[simp] theorem present_tickNo (d : TickIn) (s : State) : (present d s).tickNo = s.tickNo := rfl

/-! ### `latch` -/

@[simp] theorem latch_cfg (d : TickIn) (s : State) : (latch d s).cfg = s.cfg := rfl
@[simp] theorem latch_fsm (d : TickIn) (s : State) : (latch d s).fsm = s.fsm := rfl
@[simp] theorem latch_bitIdx (d : TickIn) (s : State) : (latch d s).bitIdx = s.bitIdx := rfl
@[simp] theorem latch_frame (d : TickIn) (s : State) : (latch d s).frame = s.frame := rfl
@[simp] theorem latch_tMark (d : TickIn) (s : State) : (latch d s).tMark = s.tMark := rfl
@[simp] theorem latch_deadline (d : TickIn) (s : State) : (latch d s).deadline = s.deadline := rfl
@[simp] theorem latch_pending (d : TickIn) (s : State) : (latch d s).pending = s.pending := rfl
@[simp] theorem latch_humInt (d : TickIn) (s : State) : (latch d s).humInt = s.humInt := rfl
@[simp] theorem latch_humFrac (d : TickIn) (s : State) : (latch d s).humFrac = s.humFrac := rfl
@[simp] theorem latch_tempInt (d : TickIn) (s : State) : (latch d s).tempInt = s.tempInt := rfl
@[simp] theorem latch_tempFrac (d : TickIn) (s : State) : (latch d s).tempFrac = s.tempFrac := rfl
@[simp] theorem latch_valid (d : TickIn) (s : State) : (latch d s).valid = s.valid := rfl
@[simp] theorem latch_lastPollMs (d : TickIn) (s : State) : (latch d s).lastPollMs = s.lastPollMs := rfl
@[simp] theorem latch_lastStatus (d : TickIn) (s : State) : (latch d s).lastStatus = s.lastStatus := rfl
@[simp] theorem latch_pinOe (d : TickIn) (s : State) : (latch d s).pinOe = s.pinOe := rfl
@[simp] theorem latch_pinDo (d : TickIn) (s : State) : (latch d s).pinDo = s.pinDo := rfl
@[simp] theorem latch_pinPu (d : TickIn) (s : State) : (latch d s).pinPu = s.pinPu := rfl
@[simp] theorem latch_crit (d : TickIn) (s : State) : (latch d s).crit = s.crit := rfl
@[simp] theorem latch_timeRefused (d : TickIn) (s : State) : (latch d s).timeRefused = s.timeRefused := rfl
@[simp] theorem latch_inp (d : TickIn) (s : State) : (latch d s).inp = d := rfl
@[simp] theorem latch_out (d : TickIn) (s : State) : (latch d s).out = { reqReady := !d.rst && decide (s.fsm = .idle), rspValid := false, rspErr := false, rspData := 0 } := rfl
@[simp] theorem latch_draws (d : TickIn) (s : State) : (latch d s).draws = s.draws.tail := rfl
@[simp] theorem latch_tickNo (d : TickIn) (s : State) : (latch d s).tickNo = s.tickNo + 1 := rfl

/-! ### `refuseTime` -/

@[simp] theorem refuseTime_cfg (s : State) : (refuseTime s).cfg = s.cfg := rfl
@[simp] theorem refuseTime_fsm (s : State) : (refuseTime s).fsm = s.fsm := rfl
@[simp] theorem refuseTime_bitIdx (s : State) : (refuseTime s).bitIdx = s.bitIdx := rfl
@[simp] theorem refuseTime_frame (s : State) : (refuseTime s).frame = s.frame := rfl
@[simp] theorem refuseTime_tMark (s : State) : (refuseTime s).tMark = s.tMark := rfl
@[simp] theorem refuseTime_deadline (s : State) : (refuseTime s).deadline = s.deadline := rfl
@[simp] theorem refuseTime_pending (s : State) : (refuseTime s).pending = s.pending := rfl
@[simp] theorem refuseTime_humInt (s : State) : (refuseTime s).humInt = s.humInt := rfl
@[simp] theorem refuseTime_humFrac (s : State) : (refuseTime s).humFrac = s.humFrac := rfl
@[simp] theorem refuseTime_tempInt (s : State) : (refuseTime s).tempInt = s.tempInt := rfl
@[simp] theorem refuseTime_tempFrac (s : State) : (refuseTime s).tempFrac = s.tempFrac := rfl
@[simp] theorem refuseTime_valid (s : State) : (refuseTime s).valid = s.valid := rfl
@[simp] theorem refuseTime_lastPollMs (s : State) : (refuseTime s).lastPollMs = s.lastPollMs := rfl
@[simp] theorem refuseTime_lastStatus (s : State) : (refuseTime s).lastStatus = s.lastStatus := rfl
@[simp] theorem refuseTime_pinOe (s : State) : (refuseTime s).pinOe = s.pinOe := rfl
@[simp] theorem refuseTime_pinDo (s : State) : (refuseTime s).pinDo = s.pinDo := rfl
@[simp] theorem refuseTime_pinPu (s : State) : (refuseTime s).pinPu = s.pinPu := rfl
@[simp] theorem refuseTime_crit (s : State) : (refuseTime s).crit = s.crit := rfl
@[simp] theorem refuseTime_timeRefused (s : State) : (refuseTime s).timeRefused = true := rfl
@[simp] theorem refuseTime_inp (s : State) : (refuseTime s).inp = s.inp := rfl
@[simp] theorem refuseTime_out (s : State) : (refuseTime s).out = s.out := rfl
@[simp] theorem refuseTime_draws (s : State) : (refuseTime s).draws = s.draws := rfl
@[simp] theorem refuseTime_tickNo (s : State) : (refuseTime s).tickNo = s.tickNo := rfl

/-! ### `resetRegisters` -/

@[simp] theorem resetRegisters_cfg (s : State) : (resetRegisters s).cfg = s.cfg := rfl
@[simp] theorem resetRegisters_fsm (s : State) : (resetRegisters s).fsm = .idle := rfl
@[simp] theorem resetRegisters_bitIdx (s : State) : (resetRegisters s).bitIdx = 0 := rfl
@[simp] theorem resetRegisters_frame (s : State) : (resetRegisters s).frame = 0 := rfl
@[simp] theorem resetRegisters_tMark (s : State) : (resetRegisters s).tMark = 0 := rfl
@[simp] theorem resetRegisters_deadline (s : State) : (resetRegisters s).deadline = 0 := rfl
@[simp] theorem resetRegisters_pending (s : State) : (resetRegisters s).pending = none := rfl
@[simp] theorem resetRegisters_humInt (s : State) : (resetRegisters s).humInt = 0 := rfl
@[simp] theorem resetRegisters_humFrac (s : State) : (resetRegisters s).humFrac = 0 := rfl
@[simp] theorem resetRegisters_tempInt (s : State) : (resetRegisters s).tempInt = 0 := rfl
@[simp] theorem resetRegisters_tempFrac (s : State) : (resetRegisters s).tempFrac = 0 := rfl
@[simp] theorem resetRegisters_valid (s : State) : (resetRegisters s).valid = false := rfl
@[simp] theorem resetRegisters_lastPollMs (s : State) : (resetRegisters s).lastPollMs = 0 := rfl
@[simp] theorem resetRegisters_lastStatus (s : State) : (resetRegisters s).lastStatus = .noPoll := rfl
@[simp] theorem resetRegisters_pinOe (s : State) : (resetRegisters s).pinOe = false := rfl
@[simp] theorem resetRegisters_pinDo (s : State) : (resetRegisters s).pinDo = true := rfl
@[simp] theorem resetRegisters_pinPu (s : State) : (resetRegisters s).pinPu = true := rfl
@[simp] theorem resetRegisters_crit (s : State) : (resetRegisters s).crit = false := rfl
@[simp] theorem resetRegisters_timeRefused (s : State) : (resetRegisters s).timeRefused = s.timeRefused := rfl
@[simp] theorem resetRegisters_inp (s : State) : (resetRegisters s).inp = s.inp := rfl
@[simp] theorem resetRegisters_out (s : State) : (resetRegisters s).out = s.out := rfl
@[simp] theorem resetRegisters_draws (s : State) : (resetRegisters s).draws = s.draws := rfl
@[simp] theorem resetRegisters_tickNo (s : State) : (resetRegisters s).tickNo = s.tickNo := rfl

/-! ### `respond` -/

@[simp] theorem respond_cfg (data : RspWord) (err : Bool) (s : State) : (respond data err s).cfg = s.cfg := rfl
@[simp] theorem respond_fsm (data : RspWord) (err : Bool) (s : State) : (respond data err s).fsm = s.fsm := rfl
@[simp] theorem respond_bitIdx (data : RspWord) (err : Bool) (s : State) : (respond data err s).bitIdx = s.bitIdx := rfl
@[simp] theorem respond_frame (data : RspWord) (err : Bool) (s : State) : (respond data err s).frame = s.frame := rfl
@[simp] theorem respond_tMark (data : RspWord) (err : Bool) (s : State) : (respond data err s).tMark = s.tMark := rfl
@[simp] theorem respond_deadline (data : RspWord) (err : Bool) (s : State) : (respond data err s).deadline = s.deadline := rfl
@[simp] theorem respond_pending (data : RspWord) (err : Bool) (s : State) : (respond data err s).pending = s.pending := rfl
@[simp] theorem respond_humInt (data : RspWord) (err : Bool) (s : State) : (respond data err s).humInt = s.humInt := rfl
@[simp] theorem respond_humFrac (data : RspWord) (err : Bool) (s : State) : (respond data err s).humFrac = s.humFrac := rfl
@[simp] theorem respond_tempInt (data : RspWord) (err : Bool) (s : State) : (respond data err s).tempInt = s.tempInt := rfl
@[simp] theorem respond_tempFrac (data : RspWord) (err : Bool) (s : State) : (respond data err s).tempFrac = s.tempFrac := rfl
@[simp] theorem respond_valid (data : RspWord) (err : Bool) (s : State) : (respond data err s).valid = s.valid := rfl
@[simp] theorem respond_lastPollMs (data : RspWord) (err : Bool) (s : State) : (respond data err s).lastPollMs = s.lastPollMs := rfl
@[simp] theorem respond_lastStatus (data : RspWord) (err : Bool) (s : State) : (respond data err s).lastStatus = s.lastStatus := rfl
@[simp] theorem respond_pinOe (data : RspWord) (err : Bool) (s : State) : (respond data err s).pinOe = s.pinOe := rfl
@[simp] theorem respond_pinDo (data : RspWord) (err : Bool) (s : State) : (respond data err s).pinDo = s.pinDo := rfl
@[simp] theorem respond_pinPu (data : RspWord) (err : Bool) (s : State) : (respond data err s).pinPu = s.pinPu := rfl
@[simp] theorem respond_crit (data : RspWord) (err : Bool) (s : State) : (respond data err s).crit = s.crit := rfl
@[simp] theorem respond_timeRefused (data : RspWord) (err : Bool) (s : State) : (respond data err s).timeRefused = s.timeRefused := rfl
@[simp] theorem respond_inp (data : RspWord) (err : Bool) (s : State) : (respond data err s).inp = s.inp := rfl
@[simp] theorem respond_out (data : RspWord) (err : Bool) (s : State) : (respond data err s).out = { s.out with rspValid := true, rspErr := err, rspData := data } := rfl
@[simp] theorem respond_draws (data : RspWord) (err : Bool) (s : State) : (respond data err s).draws = s.draws := rfl
@[simp] theorem respond_tickNo (data : RspWord) (err : Bool) (s : State) : (respond data err s).tickNo = s.tickNo := rfl

/-! ### `startPoll` -/

@[simp] theorem startPoll_cfg (k : ReadKind) (s : State) : (startPoll k s).cfg = s.cfg := rfl
@[simp] theorem startPoll_fsm (k : ReadKind) (s : State) : (startPoll k s).fsm = .startLow := rfl
@[simp] theorem startPoll_bitIdx (k : ReadKind) (s : State) : (startPoll k s).bitIdx = s.bitIdx := rfl
@[simp] theorem startPoll_frame (k : ReadKind) (s : State) : (startPoll k s).frame = s.frame := rfl
@[simp] theorem startPoll_tMark (k : ReadKind) (s : State) : (startPoll k s).tMark = s.inp.nowUs := rfl
@[simp] theorem startPoll_deadline (k : ReadKind) (s : State) : (startPoll k s).deadline = s.deadline := rfl
@[simp] theorem startPoll_pending (k : ReadKind) (s : State) : (startPoll k s).pending = some k := rfl
@[simp] theorem startPoll_humInt (k : ReadKind) (s : State) : (startPoll k s).humInt = s.humInt := rfl
@[simp] theorem startPoll_humFrac (k : ReadKind) (s : State) : (startPoll k s).humFrac = s.humFrac := rfl
@[simp] theorem startPoll_tempInt (k : ReadKind) (s : State) : (startPoll k s).tempInt = s.tempInt := rfl
@[simp] theorem startPoll_tempFrac (k : ReadKind) (s : State) : (startPoll k s).tempFrac = s.tempFrac := rfl
@[simp] theorem startPoll_valid (k : ReadKind) (s : State) : (startPoll k s).valid = s.valid := rfl
@[simp] theorem startPoll_lastPollMs (k : ReadKind) (s : State) : (startPoll k s).lastPollMs = BitVec.ofNat Config.timeWidth (nowMs s.inp.nowUs) := rfl
@[simp] theorem startPoll_lastStatus (k : ReadKind) (s : State) : (startPoll k s).lastStatus = s.lastStatus := rfl
@[simp] theorem startPoll_pinOe (k : ReadKind) (s : State) : (startPoll k s).pinOe = true := rfl
@[simp] theorem startPoll_pinDo (k : ReadKind) (s : State) : (startPoll k s).pinDo = false := rfl
@[simp] theorem startPoll_pinPu (k : ReadKind) (s : State) : (startPoll k s).pinPu = s.pinPu := rfl
@[simp] theorem startPoll_crit (k : ReadKind) (s : State) : (startPoll k s).crit = s.crit := rfl
@[simp] theorem startPoll_timeRefused (k : ReadKind) (s : State) : (startPoll k s).timeRefused = s.timeRefused := rfl
@[simp] theorem startPoll_inp (k : ReadKind) (s : State) : (startPoll k s).inp = s.inp := rfl
@[simp] theorem startPoll_out (k : ReadKind) (s : State) : (startPoll k s).out = s.out := rfl
@[simp] theorem startPoll_draws (k : ReadKind) (s : State) : (startPoll k s).draws = s.draws := rfl
@[simp] theorem startPoll_tickNo (k : ReadKind) (s : State) : (startPoll k s).tickNo = s.tickNo := rfl

/-! ### `respondPending` -/

@[simp] theorem respondPending_cfg (s : State) : (respondPending s).cfg = s.cfg := by
  unfold respondPending; split <;> rfl
@[simp] theorem respondPending_fsm (s : State) : (respondPending s).fsm = s.fsm := by
  unfold respondPending; split <;> rfl
@[simp] theorem respondPending_bitIdx (s : State) : (respondPending s).bitIdx = s.bitIdx := by
  unfold respondPending; split <;> rfl
@[simp] theorem respondPending_frame (s : State) : (respondPending s).frame = s.frame := by
  unfold respondPending; split <;> rfl
@[simp] theorem respondPending_tMark (s : State) : (respondPending s).tMark = s.tMark := by
  unfold respondPending; split <;> rfl
@[simp] theorem respondPending_deadline (s : State) : (respondPending s).deadline = s.deadline := by
  unfold respondPending; split <;> rfl
@[simp] theorem respondPending_pending (s : State) : (respondPending s).pending = s.pending := by
  unfold respondPending; split <;> rfl
@[simp] theorem respondPending_humInt (s : State) : (respondPending s).humInt = s.humInt := by
  unfold respondPending; split <;> rfl
@[simp] theorem respondPending_humFrac (s : State) : (respondPending s).humFrac = s.humFrac := by
  unfold respondPending; split <;> rfl
@[simp] theorem respondPending_tempInt (s : State) : (respondPending s).tempInt = s.tempInt := by
  unfold respondPending; split <;> rfl
@[simp] theorem respondPending_tempFrac (s : State) : (respondPending s).tempFrac = s.tempFrac := by
  unfold respondPending; split <;> rfl
@[simp] theorem respondPending_valid (s : State) : (respondPending s).valid = s.valid := by
  unfold respondPending; split <;> rfl
@[simp] theorem respondPending_lastPollMs (s : State) : (respondPending s).lastPollMs = s.lastPollMs := by
  unfold respondPending; split <;> rfl
@[simp] theorem respondPending_lastStatus (s : State) : (respondPending s).lastStatus = s.lastStatus := by
  unfold respondPending; split <;> rfl
@[simp] theorem respondPending_pinOe (s : State) : (respondPending s).pinOe = s.pinOe := by
  unfold respondPending; split <;> rfl
@[simp] theorem respondPending_pinDo (s : State) : (respondPending s).pinDo = s.pinDo := by
  unfold respondPending; split <;> rfl
@[simp] theorem respondPending_pinPu (s : State) : (respondPending s).pinPu = s.pinPu := by
  unfold respondPending; split <;> rfl
@[simp] theorem respondPending_crit (s : State) : (respondPending s).crit = s.crit := by
  unfold respondPending; split <;> rfl
@[simp] theorem respondPending_timeRefused (s : State) : (respondPending s).timeRefused = s.timeRefused := by
  unfold respondPending; split <;> rfl
@[simp] theorem respondPending_inp (s : State) : (respondPending s).inp = s.inp := by
  unfold respondPending; split <;> rfl
@[simp] theorem respondPending_draws (s : State) : (respondPending s).draws = s.draws := by
  unfold respondPending; split <;> rfl
@[simp] theorem respondPending_tickNo (s : State) : (respondPending s).tickNo = s.tickNo := by
  unfold respondPending; split <;> rfl

/-! ### `complete` -/

@[simp] theorem complete_cfg (s : State) : (complete s).cfg = s.cfg := respondPending_cfg s
@[simp] theorem complete_fsm (s : State) : (complete s).fsm = .idle := rfl
@[simp] theorem complete_bitIdx (s : State) : (complete s).bitIdx = s.bitIdx := respondPending_bitIdx s
@[simp] theorem complete_frame (s : State) : (complete s).frame = s.frame := respondPending_frame s
@[simp] theorem complete_tMark (s : State) : (complete s).tMark = s.tMark := respondPending_tMark s
@[simp] theorem complete_deadline (s : State) : (complete s).deadline = s.deadline := respondPending_deadline s
@[simp] theorem complete_pending (s : State) : (complete s).pending = none := rfl
@[simp] theorem complete_humInt (s : State) : (complete s).humInt = s.humInt := respondPending_humInt s
@[simp] theorem complete_humFrac (s : State) : (complete s).humFrac = s.humFrac := respondPending_humFrac s
@[simp] theorem complete_tempInt (s : State) : (complete s).tempInt = s.tempInt := respondPending_tempInt s
@[simp] theorem complete_tempFrac (s : State) : (complete s).tempFrac = s.tempFrac := respondPending_tempFrac s
@[simp] theorem complete_valid (s : State) : (complete s).valid = s.valid := respondPending_valid s
@[simp] theorem complete_lastPollMs (s : State) : (complete s).lastPollMs = s.lastPollMs := respondPending_lastPollMs s
@[simp] theorem complete_lastStatus (s : State) : (complete s).lastStatus = s.lastStatus := respondPending_lastStatus s
@[simp] theorem complete_pinOe (s : State) : (complete s).pinOe = s.pinOe := respondPending_pinOe s
@[simp] theorem complete_pinDo (s : State) : (complete s).pinDo = s.pinDo := respondPending_pinDo s
@[simp] theorem complete_pinPu (s : State) : (complete s).pinPu = s.pinPu := respondPending_pinPu s
@[simp] theorem complete_crit (s : State) : (complete s).crit = s.crit := respondPending_crit s
@[simp] theorem complete_timeRefused (s : State) : (complete s).timeRefused = s.timeRefused := respondPending_timeRefused s
@[simp] theorem complete_inp (s : State) : (complete s).inp = s.inp := respondPending_inp s
@[simp] theorem complete_out (s : State) : (complete s).out = (respondPending s).out := rfl
@[simp] theorem complete_draws (s : State) : (complete s).draws = s.draws := respondPending_draws s
@[simp] theorem complete_tickNo (s : State) : (complete s).tickNo = s.tickNo := respondPending_tickNo s

/-! ### `failPoll` -/

@[simp] theorem failPoll_cfg (code : Status) (s : State) : (failPoll code s).cfg = s.cfg := complete_cfg _
@[simp] theorem failPoll_fsm (code : Status) (s : State) : (failPoll code s).fsm = .idle := rfl
@[simp] theorem failPoll_bitIdx (code : Status) (s : State) : (failPoll code s).bitIdx = s.bitIdx := complete_bitIdx _
@[simp] theorem failPoll_frame (code : Status) (s : State) : (failPoll code s).frame = s.frame := complete_frame _
@[simp] theorem failPoll_tMark (code : Status) (s : State) : (failPoll code s).tMark = s.tMark := complete_tMark _
@[simp] theorem failPoll_deadline (code : Status) (s : State) : (failPoll code s).deadline = s.deadline := complete_deadline _
@[simp] theorem failPoll_pending (code : Status) (s : State) : (failPoll code s).pending = none := rfl
@[simp] theorem failPoll_humInt (code : Status) (s : State) : (failPoll code s).humInt = s.humInt := complete_humInt _
@[simp] theorem failPoll_humFrac (code : Status) (s : State) : (failPoll code s).humFrac = s.humFrac := complete_humFrac _
@[simp] theorem failPoll_tempInt (code : Status) (s : State) : (failPoll code s).tempInt = s.tempInt := complete_tempInt _
@[simp] theorem failPoll_tempFrac (code : Status) (s : State) : (failPoll code s).tempFrac = s.tempFrac := complete_tempFrac _
@[simp] theorem failPoll_valid (code : Status) (s : State) : (failPoll code s).valid = s.valid := complete_valid _
@[simp] theorem failPoll_lastPollMs (code : Status) (s : State) : (failPoll code s).lastPollMs = s.lastPollMs := complete_lastPollMs _
@[simp] theorem failPoll_lastStatus (code : Status) (s : State) : (failPoll code s).lastStatus = code := complete_lastStatus _
@[simp] theorem failPoll_pinOe (code : Status) (s : State) : (failPoll code s).pinOe = false := complete_pinOe _
@[simp] theorem failPoll_pinDo (code : Status) (s : State) : (failPoll code s).pinDo = s.pinDo := complete_pinDo _
@[simp] theorem failPoll_pinPu (code : Status) (s : State) : (failPoll code s).pinPu = true := complete_pinPu _
@[simp] theorem failPoll_crit (code : Status) (s : State) : (failPoll code s).crit = false := complete_crit _
@[simp] theorem failPoll_timeRefused (code : Status) (s : State) : (failPoll code s).timeRefused = s.timeRefused := complete_timeRefused _
@[simp] theorem failPoll_inp (code : Status) (s : State) : (failPoll code s).inp = s.inp := complete_inp _
@[simp] theorem failPoll_out (code : Status) (s : State) : (failPoll code s).out = (respondPending s).out := by
  unfold failPoll complete respondPending; cases h : s.pending with
  | none => simp
  | some k => cases k <;> simp [h, respond, cachedWord]
@[simp] theorem failPoll_draws (code : Status) (s : State) : (failPoll code s).draws = s.draws := complete_draws _
@[simp] theorem failPoll_tickNo (code : Status) (s : State) : (failPoll code s).tickNo = s.tickNo := complete_tickNo _

/-! ### `success` -/

@[simp] theorem success_cfg (b0 b1 b2 b3 : Byte) (s : State) : (success b0 b1 b2 b3 s).cfg = s.cfg := complete_cfg _
@[simp] theorem success_fsm (b0 b1 b2 b3 : Byte) (s : State) : (success b0 b1 b2 b3 s).fsm = .idle := rfl
@[simp] theorem success_bitIdx (b0 b1 b2 b3 : Byte) (s : State) : (success b0 b1 b2 b3 s).bitIdx = s.bitIdx := complete_bitIdx _
@[simp] theorem success_frame (b0 b1 b2 b3 : Byte) (s : State) : (success b0 b1 b2 b3 s).frame = s.frame := complete_frame _
@[simp] theorem success_tMark (b0 b1 b2 b3 : Byte) (s : State) : (success b0 b1 b2 b3 s).tMark = s.tMark := complete_tMark _
@[simp] theorem success_deadline (b0 b1 b2 b3 : Byte) (s : State) : (success b0 b1 b2 b3 s).deadline = s.deadline := complete_deadline _
@[simp] theorem success_pending (b0 b1 b2 b3 : Byte) (s : State) : (success b0 b1 b2 b3 s).pending = none := rfl
@[simp] theorem success_humInt (b0 b1 b2 b3 : Byte) (s : State) : (success b0 b1 b2 b3 s).humInt = b0 := complete_humInt _
@[simp] theorem success_humFrac (b0 b1 b2 b3 : Byte) (s : State) : (success b0 b1 b2 b3 s).humFrac = b1 := complete_humFrac _
@[simp] theorem success_tempInt (b0 b1 b2 b3 : Byte) (s : State) : (success b0 b1 b2 b3 s).tempInt = b2 := complete_tempInt _
@[simp] theorem success_tempFrac (b0 b1 b2 b3 : Byte) (s : State) : (success b0 b1 b2 b3 s).tempFrac = b3 := complete_tempFrac _
@[simp] theorem success_valid (b0 b1 b2 b3 : Byte) (s : State) : (success b0 b1 b2 b3 s).valid = true := complete_valid _
@[simp] theorem success_lastPollMs (b0 b1 b2 b3 : Byte) (s : State) : (success b0 b1 b2 b3 s).lastPollMs = s.lastPollMs := complete_lastPollMs _
@[simp] theorem success_lastStatus (b0 b1 b2 b3 : Byte) (s : State) : (success b0 b1 b2 b3 s).lastStatus = .ok := complete_lastStatus _
@[simp] theorem success_pinOe (b0 b1 b2 b3 : Byte) (s : State) : (success b0 b1 b2 b3 s).pinOe = s.pinOe := complete_pinOe _
@[simp] theorem success_pinDo (b0 b1 b2 b3 : Byte) (s : State) : (success b0 b1 b2 b3 s).pinDo = s.pinDo := complete_pinDo _
@[simp] theorem success_pinPu (b0 b1 b2 b3 : Byte) (s : State) : (success b0 b1 b2 b3 s).pinPu = s.pinPu := complete_pinPu _
@[simp] theorem success_crit (b0 b1 b2 b3 : Byte) (s : State) : (success b0 b1 b2 b3 s).crit = s.crit := complete_crit _
@[simp] theorem success_timeRefused (b0 b1 b2 b3 : Byte) (s : State) : (success b0 b1 b2 b3 s).timeRefused = s.timeRefused := complete_timeRefused _
@[simp] theorem success_inp (b0 b1 b2 b3 : Byte) (s : State) : (success b0 b1 b2 b3 s).inp = s.inp := complete_inp _
@[simp] theorem success_draws (b0 b1 b2 b3 : Byte) (s : State) : (success b0 b1 b2 b3 s).draws = s.draws := complete_draws _
@[simp] theorem success_tickNo (b0 b1 b2 b3 : Byte) (s : State) : (success b0 b1 b2 b3 s).tickNo = s.tickNo := complete_tickNo _

end Sys2Proof.Machine
end

