-- ==== Sys2Proof/Laws/Ops.lean ====
section
/-! SUPPORT. One lemma per shared operation that says everything it can do. -/

namespace Sys2Proof.Machine

@[simp] theorem flagWord_true : flagWord true = 0x0001#16 := by decide

@[simp] theorem flagWord_false : flagWord false = 0x0000#16 := by decide

/-- The word of a status is its code of 60_exceptions.md R190. -/
theorem toNat_statusWord (c : Status) : (statusWord c).toNat = (statusCode c).toNat := by
  cases c <;> rfl

theorem statusCode_injective : Function.Injective statusCode := by
  intro a b h
  cases a <;> cases b <;> first | rfl | exact absurd h (by decide)

/-- The integer byte of a reading's word (30_encoding.md R74). -/
theorem readingWord_int (i f : Byte) : (readingWord i f).extractLsb' 8 8 = i := by
  unfold readingWord
  ext k hk
  simp only [BitVec.getElem_extractLsb', BitVec.getLsbD_append]
  rw [if_neg (by omega), show 8 + k - 8 = k by omega, BitVec.getLsbD_eq_getElem hk]

/-- The tenths byte of a reading's word (30_encoding.md R74). -/
theorem readingWord_frac (i f : Byte) : (readingWord i f).extractLsb' 0 8 = f := by
  unfold readingWord
  ext k hk
  simp only [BitVec.getElem_extractLsb', BitVec.getLsbD_append]
  rw [if_pos (by omega), Nat.zero_add, BitVec.getLsbD_eq_getElem hk]

theorem nextDraw_present (d : TickIn) (s : State) : nextDraw (present d s) = d := rfl

/-- The tick's start does not depend on how its draw was scheduled. -/
theorem latch_present (d : TickIn) (s : State) :
    latch d (present d s) = { latch d s with draws := s.draws } := rfl

theorem respondPending_of_some (s : State) (k : ReadKind) (h : s.pending = some k) :
    respondPending s = respond (cachedWord k s) false s := by
  unfold respondPending
  rw [h]

theorem respondPending_of_none (s : State) (h : s.pending = none) : respondPending s = s := by
  unfold respondPending
  rw [h]

/-- What `complete` does when a READ waits. -/
theorem complete_of_some (s : State) (k : ReadKind) (h : s.pending = some k) :
    complete s = { s with
      pending := none
      fsm := .idle
      out := { s.out with rspValid := true, rspErr := false, rspData := cachedWord k s } } := by
  unfold complete
  rw [respondPending_of_some s k h]
  rfl

/-- The response outputs after `complete`. -/
theorem respondPending_out_cases (s : State) :
    (∃ k, s.pending = some k ∧
      (respondPending s).out = { s.out with rspValid := true, rspErr := false, rspData := cachedWord k s }) ∨
    (s.pending = none ∧ (respondPending s).out = s.out) := by
  cases h : s.pending with
  | none => exact .inr ⟨rfl, by rw [respondPending_of_none s h]⟩
  | some k => exact .inl ⟨k, rfl, by rw [respondPending_of_some s k h]; rfl⟩

/-- What a READ command does. -/
theorem readCommand_cases (k : ReadKind) (s : State) :
    (isStale s = true ∧ readCommand k s = startPoll k s) ∨
    (isStale s = false ∧ readCommand k s = respond (cachedWord k s) false s) := by
  unfold readCommand
  cases h : isStale s
  · exact .inr ⟨rfl, rfl⟩
  · exact .inl ⟨rfl, rfl⟩

/-- What a command can do: start a poll (a READ, when stale), or respond and change nothing else. An error is answered
for a reserved code only. -/
theorem exec_cases (i : Instr) (s t : State) (h : exec i s = .next t) :
    (∃ k, (i = .readTemperature ∧ k = .temp ∨ i = .readHumidity ∧ k = .hum) ∧ isStale s = true ∧ t = startPoll k s) ∨
    (∃ data, ¬ (i = .rsvd0 ∨ i = .rsvd6 ∨ i = .rsvd7) ∧ t = respond data false s) ∨
    ((i = .rsvd0 ∨ i = .rsvd6 ∨ i = .rsvd7) ∧ t = respond errorWord true s) := by
  have read : ∀ k, Host.Outcome.next (φ := Fault) (ρ := Refusal) (readCommand k s) = .next t →
      isStale s = true ∧ t = startPoll k s ∨ t = respond (cachedWord k s) false s := by
    intro k hk
    cases hk
    obtain ⟨hs, e⟩ | ⟨-, e⟩ := readCommand_cases k s
    · exact .inl ⟨hs, e⟩
    · exact .inr e
  cases i
  case readTemperature =>
    obtain ⟨hs, e⟩ | e := read .temp h
    · exact .inl ⟨.temp, .inl ⟨rfl, rfl⟩, hs, e⟩
    · exact .inr (.inl ⟨_, by simp, e⟩)
  case readHumidity =>
    obtain ⟨hs, e⟩ | e := read .hum h
    · exact .inl ⟨.hum, .inr ⟨rfl, rfl⟩, hs, e⟩
    · exact .inr (.inl ⟨_, by simp, e⟩)
  case hasValidData => cases h; exact .inr (.inl ⟨_, by simp, rfl⟩)
  case hasStaleData => cases h; exact .inr (.inl ⟨_, by simp, rfl⟩)
  case readStatus => cases h; exact .inr (.inl ⟨_, by simp, rfl⟩)
  all_goals cases h; exact .inr (.inr ⟨by simp, rfl⟩)

end Sys2Proof.Machine
end

