-- ==== Sys2Proof/Laws/FrameDecoder.lean ====
section
/-! SUPPORT. What each FSM rule can do, with its guards, said once (41_frame_decoder.md R123 to R137). -/

namespace Sys2Proof.Machine

theorem startLowTick_cases (s : State) :
    (s.inp.nowUs.toNat - s.tMark.toNat ≥ s.cfg.tStartUs ∧
      startLowTick s = { s with pinDo := true, tMark := s.inp.nowUs, fsm := .startHigh }) ∨
    (s.inp.nowUs.toNat - s.tMark.toNat < s.cfg.tStartUs ∧ startLowTick s = s) := by
  unfold startLowTick
  split
  · next h => exact .inl ⟨(delayElapsed_iff _ _ _).mp h, rfl⟩
  · next h => exact .inr ⟨by rw [delayElapsed_iff] at h; omega, rfl⟩

theorem startHighTick_cases (s : State) :
    (s.inp.nowUs.toNat - s.tMark.toNat ≥ s.cfg.tReleaseUs ∧
      startHighTick s = { s with pinOe := false, pinPu := true, fsm := .respCheck }) ∨
    (s.inp.nowUs.toNat - s.tMark.toNat < s.cfg.tReleaseUs ∧ startHighTick s = s) := by
  unfold startHighTick
  split
  · next h => exact .inl ⟨(delayElapsed_iff _ _ _).mp h, rfl⟩
  · next h => exact .inr ⟨by rw [delayElapsed_iff] at h; omega, rfl⟩

theorem respCheckTick_cases (s : State) :
    (s.inp.di = true ∧ respCheckTick s = failPoll .noResponse s) ∨
    (s.inp.di = false ∧ respCheckTick s =
      { s with deadline := deadlineAfter s.inp.nowUs s.cfg.tRespDeadlineUs, fsm := .preLow }) := by
  unfold respCheckTick
  cases s.inp.di
  · exact .inr ⟨rfl, rfl⟩
  · exact .inl ⟨rfl, rfl⟩

theorem preLowTick_cases (s : State) :
    (s.inp.di = true ∧ preLowTick s = { s with fsm := .preHigh }) ∨
    (s.inp.di ≠ true ∧ s.inp.nowUs.toNat > s.deadline.toNat ∧ preLowTick s = failPoll .handshakeTimeout s) ∨
    (s.inp.di ≠ true ∧ s.inp.nowUs.toNat ≤ s.deadline.toNat ∧ preLowTick s = s) := by
  unfold preLowTick
  split
  · next h => exact .inl ⟨(waitForLevel_eq_success_iff _ _ _ _).mp h, rfl⟩
  · next h =>
    obtain ⟨h1, h2⟩ := (waitForLevel_eq_timeout_iff _ _ _ _).mp h
    exact .inr (.inl ⟨h1, h2, rfl⟩)
  · next h =>
    obtain ⟨h1, h2⟩ := (waitForLevel_eq_stay_iff _ _ _ _).mp h
    exact .inr (.inr ⟨h1, h2, rfl⟩)

theorem preHighTick_cases (s : State) :
    (s.inp.di = false ∧ preHighTick s = { s with
      bitIdx := 0, frame := 0, deadline := deadlineAfter s.inp.nowUs s.cfg.tBitTimeoutUs,
      crit := true, fsm := .bitLow }) ∨
    (s.inp.di ≠ false ∧ s.inp.nowUs.toNat > s.deadline.toNat ∧ preHighTick s = failPoll .handshakeTimeout s) ∨
    (s.inp.di ≠ false ∧ s.inp.nowUs.toNat ≤ s.deadline.toNat ∧ preHighTick s = s) := by
  unfold preHighTick
  split
  · next h => exact .inl ⟨(waitForLevel_eq_success_iff _ _ _ _).mp h, rfl⟩
  · next h =>
    obtain ⟨h1, h2⟩ := (waitForLevel_eq_timeout_iff _ _ _ _).mp h
    exact .inr (.inl ⟨h1, h2, rfl⟩)
  · next h =>
    obtain ⟨h1, h2⟩ := (waitForLevel_eq_stay_iff _ _ _ _).mp h
    exact .inr (.inr ⟨h1, h2, rfl⟩)

theorem bitLowTick_cases (s : State) :
    (s.inp.di = true ∧ bitLowTick s = { s with tMark := s.inp.nowUs, fsm := .bitHigh }) ∨
    (s.inp.di ≠ true ∧ s.inp.nowUs.toNat > s.deadline.toNat ∧ bitLowTick s = failPoll .bitTimeout s) ∨
    (s.inp.di ≠ true ∧ s.inp.nowUs.toNat ≤ s.deadline.toNat ∧ bitLowTick s = s) := by
  unfold bitLowTick
  split
  · next h => exact .inl ⟨(waitForLevel_eq_success_iff _ _ _ _).mp h, rfl⟩
  · next h =>
    obtain ⟨h1, h2⟩ := (waitForLevel_eq_timeout_iff _ _ _ _).mp h
    exact .inr (.inl ⟨h1, h2, rfl⟩)
  · next h =>
    obtain ⟨h1, h2⟩ := (waitForLevel_eq_stay_iff _ _ _ _).mp h
    exact .inr (.inr ⟨h1, h2, rfl⟩)

theorem checkFrame_cases (f : Frame) (s : State) :
    (checksumOk f = true ∧
      checkFrame f s = success (frameByte f 0) (frameByte f 1) (frameByte f 2) (frameByte f 3) s) ∨
    (checksumOk f = false ∧ checkFrame f s = failPoll .checksumMismatch s) := by
  unfold checkFrame
  cases checksumOk f
  · exact .inr ⟨rfl, rfl⟩
  · exact .inl ⟨rfl, rfl⟩

/-- An accepted bit goes on to the next cell, or, at bit 39, to the checksum of the frame it completes. -/
theorem acceptBit_cases (b : Bool) (s : State) :
    (s.bitIdx.toNat < 39 ∧ acceptBit b s = { s with
      frame := shiftIn s.frame b, bitIdx := s.bitIdx + 1,
      deadline := deadlineAfter s.inp.nowUs s.cfg.tBitTimeoutUs, fsm := .bitLow }) ∨
    (39 ≤ s.bitIdx.toNat ∧ acceptBit b s =
      checkFrame (shiftIn s.frame b) { s with frame := shiftIn s.frame b, crit := false }) := by
  unfold acceptBit advanceBit
  split
  · next h => exact .inl ⟨h, rfl⟩
  · next h => exact .inr ⟨by simp only [Config.nBits] at h; omega, rfl⟩

theorem zeroResult_cases (s : State) :
    (s.bitIdx.toNat = 39 ∧ s.cfg.lastBitPolicy = .one ∧ zeroResult s = acceptBit true s) ∨
    (¬ (s.bitIdx.toNat = 39 ∧ s.cfg.lastBitPolicy = .one) ∧ zeroResult s = failPoll .bitTimeout s) := by
  unfold zeroResult
  split
  · next h => exact .inl ⟨h.1, h.2, rfl⟩
  · next h => exact .inr ⟨h, rfl⟩

/-- The pulse goes on, or it measured nothing, or it measured a width and its bit is accepted. -/
theorem bitHighTick_cases (s : State) :
    (s.inp.di = true ∧ s.inp.nowUs.toNat - s.tMark.toNat ≤ s.cfg.tBitTimeoutUs ∧ bitHighTick s = s) ∨
    ((s.cfg.tBitTimeoutUs < s.inp.nowUs.toNat - s.tMark.toNat ∨
        s.inp.di = false ∧ s.inp.nowUs.toNat - s.tMark.toNat = 0) ∧ bitHighTick s = zeroResult s) ∨
    (s.inp.di = false ∧ 0 < s.inp.nowUs.toNat - s.tMark.toNat ∧
      s.inp.nowUs.toNat - s.tMark.toNat ≤ s.cfg.tBitTimeoutUs ∧
      bitHighTick s = acceptBit (classify s.cfg (s.inp.nowUs.toNat - s.tMark.toNat)) s) := by
  unfold bitHighTick
  split
  · next h =>
    obtain ⟨h1, h2⟩ := (measurePulseWidth_eq_none_iff _ _ _ _).mp h
    exact .inl ⟨h1, h2, rfl⟩
  · next h => exact .inr (.inl ⟨(measurePulseWidth_eq_zero_iff _ _ _ _).mp h, rfl⟩)
  · next r h =>
    obtain ⟨h1, h2, h3⟩ := (measurePulseWidth_eq_pos_iff _ _ _ _ _).mp h
    exact .inr (.inr ⟨h1, by omega, by omega, by rw [h2]⟩)

/-- The ways out of BIT_HIGH and what each writes: stay, fail, the next cell, or the end of the frame. -/
theorem bitHighTick_outcomes (s : State) :
    bitHighTick s = s ∨
    (bitHighTick s = failPoll .bitTimeout s) ∨
    (∃ b, s.bitIdx.toNat < 39 ∧ bitHighTick s = { s with
      frame := shiftIn s.frame b, bitIdx := s.bitIdx + 1,
      deadline := deadlineAfter s.inp.nowUs s.cfg.tBitTimeoutUs, fsm := .bitLow }) ∨
    (∃ b, 39 ≤ s.bitIdx.toNat ∧ bitHighTick s =
      checkFrame (shiftIn s.frame b) { s with frame := shiftIn s.frame b, crit := false }) := by
  have h : bitHighTick s = s ∨ bitHighTick s = failPoll .bitTimeout s ∨ ∃ b, bitHighTick s = acceptBit b s := by
    obtain ⟨-, -, e⟩ | ⟨-, e⟩ | ⟨-, -, -, e⟩ := bitHighTick_cases s
    · exact .inl e
    · obtain ⟨-, -, e'⟩ | ⟨-, e'⟩ := zeroResult_cases s
      · exact .inr (.inr ⟨_, e.trans e'⟩)
      · exact .inr (.inl (e.trans e'))
    · exact .inr (.inr ⟨_, e⟩)
  obtain e | e | ⟨b, e⟩ := h
  · exact .inl e
  · exact .inr (.inl e)
  · obtain ⟨h, e'⟩ | ⟨h, e'⟩ := acceptBit_cases b s
    · exact .inr (.inr (.inl ⟨b, h, e.trans e'⟩))
    · exact .inr (.inr (.inr ⟨b, h, e.trans e'⟩))

end Sys2Proof.Machine
end

