-- ==== Sys2Proof/Laws/Tick.lean ====
section
/-! SUPPORT. What one step can do, said once, and the run of a list of draws one tick at a time. -/

namespace Sys2Proof.Machine

/-! ### `sampled` -/

@[simp] theorem sampled_cfg (d : TickIn) (s : State) : (sampled d s).cfg = s.cfg := rfl
@[simp] theorem sampled_fsm (d : TickIn) (s : State) : (sampled d s).fsm = s.fsm := rfl
@[simp] theorem sampled_bitIdx (d : TickIn) (s : State) : (sampled d s).bitIdx = s.bitIdx := rfl
@[simp] theorem sampled_frame (d : TickIn) (s : State) : (sampled d s).frame = s.frame := rfl
@[simp] theorem sampled_tMark (d : TickIn) (s : State) : (sampled d s).tMark = s.tMark := rfl
@[simp] theorem sampled_deadline (d : TickIn) (s : State) : (sampled d s).deadline = s.deadline := rfl
@[simp] theorem sampled_pending (d : TickIn) (s : State) : (sampled d s).pending = s.pending := rfl
@[simp] theorem sampled_humInt (d : TickIn) (s : State) : (sampled d s).humInt = s.humInt := rfl
@[simp] theorem sampled_humFrac (d : TickIn) (s : State) : (sampled d s).humFrac = s.humFrac := rfl
@[simp] theorem sampled_tempInt (d : TickIn) (s : State) : (sampled d s).tempInt = s.tempInt := rfl
@[simp] theorem sampled_tempFrac (d : TickIn) (s : State) : (sampled d s).tempFrac = s.tempFrac := rfl
@[simp] theorem sampled_valid (d : TickIn) (s : State) : (sampled d s).valid = s.valid := rfl
@[simp] theorem sampled_lastPollMs (d : TickIn) (s : State) : (sampled d s).lastPollMs = s.lastPollMs := rfl
@[simp] theorem sampled_lastStatus (d : TickIn) (s : State) : (sampled d s).lastStatus = s.lastStatus := rfl
@[simp] theorem sampled_pinOe (d : TickIn) (s : State) : (sampled d s).pinOe = s.pinOe := rfl
@[simp] theorem sampled_pinDo (d : TickIn) (s : State) : (sampled d s).pinDo = s.pinDo := rfl
@[simp] theorem sampled_pinPu (d : TickIn) (s : State) : (sampled d s).pinPu = s.pinPu := rfl
@[simp] theorem sampled_crit (d : TickIn) (s : State) : (sampled d s).crit = s.crit := rfl
@[simp] theorem sampled_timeRefused (d : TickIn) (s : State) : (sampled d s).timeRefused = s.timeRefused := rfl
@[simp] theorem sampled_inp (d : TickIn) (s : State) : (sampled d s).inp = d := rfl
@[simp] theorem sampled_out (d : TickIn) (s : State) : (sampled d s).out = { reqReady := decide (s.fsm = .idle), rspValid := false, rspErr := false, rspData := 0 } := rfl
@[simp] theorem sampled_draws (d : TickIn) (s : State) : (sampled d s).draws = s.draws := rfl
@[simp] theorem sampled_tickNo (d : TickIn) (s : State) : (sampled d s).tickNo = s.tickNo + 1 := rfl

/-! ### The step -/

theorem step_present (d : TickIn) (s : State) : step (present d s) = tickWith d (present d s) := rfl

theorem tickWith_of_refused (d : TickIn) (s : State) (h : timeAdmissible s.cfg s.inp.nowUs d.nowUs = false) :
    tickWith d s = .next (refuseTime (latch d s)) := by
  unfold tickWith
  rw [h]
  rfl

theorem tickWith_of_reset (d : TickIn) (s : State) (h : timeAdmissible s.cfg s.inp.nowUs d.nowUs = true)
    (hr : d.rst = true) : tickWith d s = .next (resetRegisters (latch d s)) := by
  unfold tickWith tick
  rw [h, latch_inp, hr]
  rfl

theorem tickWith_of_rule (d : TickIn) (s : State) (h : timeAdmissible s.cfg s.inp.nowUs d.nowUs = true)
    (hr : d.rst = false) : tickWith d s = stateRule (latch d s) := by
  unfold tickWith tick
  rw [h, latch_inp, hr]
  rfl

/-- The start of an ordinary tick that was scheduled by `present`. -/
theorem latch_present_of_ordinary (d : TickIn) (s : State) (h : d.rst = false) :
    latch d (present d s) = sampled d s := by
  rw [latch_present]
  simp only [latch, sampled, h, Bool.not_false, Bool.true_and]

/-- An ordinary tick runs the rule of its state. -/
theorem step_present_of_ordinary (d : TickIn) (s : State) (h : OrdinaryTick d s) :
    step (present d s) = stateRule (sampled d s) := by
  have ha : timeAdmissible s.cfg s.inp.nowUs d.nowUs = true :=
    (timeAdmissible_iff _ _ _).mpr ⟨h.monotone, h.no_wrap⟩
  rw [step_present, tickWith_of_rule d (present d s) ha h.not_rst, latch_present_of_ordinary d s h.not_rst]

/-- The three things a step can be: refused, a reset, or the rule of its state. -/
theorem step_cases (s t : State) (h : step s = .next t) :
    (timeAdmissible s.cfg s.inp.nowUs (nextDraw s).nowUs = false ∧ t = refuseTime (latch (nextDraw s) s)) ∨
    (timeAdmissible s.cfg s.inp.nowUs (nextDraw s).nowUs = true ∧ (nextDraw s).rst = true ∧
      t = resetRegisters (latch (nextDraw s) s)) ∨
    (timeAdmissible s.cfg s.inp.nowUs (nextDraw s).nowUs = true ∧ (nextDraw s).rst = false ∧
      stateRule (latch (nextDraw s) s) = .next t) := by
  have h : tickWith (nextDraw s) s = .next t := h
  cases ha : timeAdmissible s.cfg s.inp.nowUs (nextDraw s).nowUs
  · rw [tickWith_of_refused _ _ ha] at h
    cases h
    exact .inl ⟨rfl, rfl⟩
  · cases hr : (nextDraw s).rst
    · rw [tickWith_of_rule _ _ ha hr] at h
      exact .inr (.inr ⟨rfl, rfl, h⟩)
    · rw [tickWith_of_reset _ _ ha hr] at h
      cases h
      exact .inr (.inl ⟨rfl, rfl, rfl⟩)

/-- What the rule of a state can be: the idle rule, or the tick of a busy state. -/
theorem stateRule_cases (s t : State) (h : stateRule s = .next t) :
    (s.fsm = .idle ∧ s.inp.reqValid = false ∧ t = s) ∨
    (s.fsm = .idle ∧ s.inp.reqValid = true ∧ exec (decode s.inp.reqCmd) s = .next t) ∨
    (s.fsm = .startLow ∧ t = startLowTick s) ∨ (s.fsm = .startHigh ∧ t = startHighTick s) ∨
    (s.fsm = .respCheck ∧ t = respCheckTick s) ∨ (s.fsm = .preLow ∧ t = preLowTick s) ∨
    (s.fsm = .preHigh ∧ t = preHighTick s) ∨ (s.fsm = .bitLow ∧ t = bitLowTick s) ∨
    (s.fsm = .bitHigh ∧ t = bitHighTick s) := by
  unfold stateRule idleTick at h
  cases hf : s.fsm <;> simp only [hf] at h
  · cases hv : s.inp.reqValid <;> simp only [hv, Bool.false_eq_true, if_false, if_true] at h
    · cases h; simp
    · simp [h]
  all_goals cases h; simp

/-- A tick takes its draw off the schedule, and nothing else touches the schedule. -/
theorem step_draws (s t : State) (h : step s = .next t) : t.draws = s.draws.tail := by
  obtain ⟨-, rfl⟩ | ⟨-, -, rfl⟩ | ⟨-, -, h⟩ := step_cases s t h
  · rfl
  · rfl
  rw [← latch_draws (nextDraw s) s]
  generalize latch (nextDraw s) s = u at h ⊢
  obtain ⟨-, -, rfl⟩ | ⟨-, -, h⟩ | ⟨-, rfl⟩ | ⟨-, rfl⟩ | ⟨-, rfl⟩ | ⟨-, rfl⟩ | ⟨-, rfl⟩ | ⟨-, rfl⟩ | ⟨-, rfl⟩ :=
    stateRule_cases u t h
  · rfl
  · obtain ⟨k, -, -, rfl⟩ | ⟨data, -, rfl⟩ | ⟨-, rfl⟩ := exec_cases _ u t h <;> rfl
  · obtain ⟨-, e⟩ | ⟨-, e⟩ := startLowTick_cases u <;> rw [e]
  · obtain ⟨-, e⟩ | ⟨-, e⟩ := startHighTick_cases u <;> rw [e]
  · obtain ⟨-, e⟩ | ⟨-, e⟩ := respCheckTick_cases u <;> rw [e]; rw [failPoll_draws]
  · obtain ⟨-, e⟩ | ⟨-, -, e⟩ | ⟨-, -, e⟩ := preLowTick_cases u <;> rw [e]; rw [failPoll_draws]
  · obtain ⟨-, e⟩ | ⟨-, -, e⟩ | ⟨-, -, e⟩ := preHighTick_cases u <;> rw [e]; rw [failPoll_draws]
  · obtain ⟨-, e⟩ | ⟨-, -, e⟩ | ⟨-, -, e⟩ := bitLowTick_cases u <;> rw [e]; rw [failPoll_draws]
  · obtain e | e | ⟨b, -, e⟩ | ⟨b, -, e⟩ := bitHighTick_outcomes u <;> rw [e]
    · rw [failPoll_draws]
    · obtain ⟨-, e'⟩ | ⟨-, e'⟩ := checkFrame_cases (shiftIn u.frame b) { u with frame := shiftIn u.frame b, crit := false }
        <;> rw [e']
      · rw [success_draws]
      · rw [failPoll_draws]

/-! ### No rule reads or writes the schedule -/

theorem complete_withDraws (ds : List TickIn) (s : State) :
    complete { s with draws := ds } = { complete s with draws := ds } := by
  cases h : s.pending <;> simp only [complete, respondPending, h, respond, cachedWord]

theorem failPoll_withDraws (ds : List TickIn) (c : Status) (s : State) :
    failPoll c { s with draws := ds } = { failPoll c s with draws := ds } :=
  complete_withDraws ds { s with lastStatus := c, crit := false, pinOe := false, pinPu := true }

theorem checkFrame_withDraws (ds : List TickIn) (f : Frame) (s : State) :
    checkFrame f { s with draws := ds } = { checkFrame f s with draws := ds } := by
  unfold checkFrame
  split
  · exact complete_withDraws ds { s with
      humInt := frameByte f 0, humFrac := frameByte f 1, tempInt := frameByte f 2, tempFrac := frameByte f 3,
      valid := true, lastStatus := .ok }
  · exact failPoll_withDraws ds .checksumMismatch s

theorem acceptBit_withDraws (ds : List TickIn) (b : Bool) (s : State) :
    acceptBit b { s with draws := ds } = { acceptBit b s with draws := ds } := by
  by_cases h : s.bitIdx.toNat < Config.nBits - 1
  · simp only [acceptBit, advanceBit, h, if_true]
  · simp only [acceptBit, advanceBit, h, if_false]
    exact checkFrame_withDraws ds _ { s with frame := shiftIn s.frame b, crit := false }

theorem exec_withDraws (ds : List TickIn) (i : Instr) (s t : State) (h : exec i s = .next t) :
    exec i { s with draws := ds } = .next { t with draws := ds } := by
  have read : ∀ k, readCommand k { s with draws := ds } = { readCommand k s with draws := ds } := by
    intro k
    have hs : isStale { s with draws := ds } = isStale s := rfl
    unfold readCommand
    rw [hs]
    cases isStale s <;> simp only [Bool.false_eq_true, if_false, if_true]
    · cases k <;> rfl
    · rfl
  cases i
  case readTemperature =>
    cases h
    exact congrArg Host.Outcome.next (read .temp)
  case readHumidity =>
    cases h
    exact congrArg Host.Outcome.next (read .hum)
  all_goals cases h; rfl

theorem startLowTick_withDraws (ds : List TickIn) (s : State) :
    startLowTick { s with draws := ds } = { startLowTick s with draws := ds } := by
  cases h : delayElapsed s.cfg.tStartUs s.inp.nowUs s.tMark <;>
    simp only [startLowTick, h, Bool.false_eq_true, if_false, if_true]

theorem startHighTick_withDraws (ds : List TickIn) (s : State) :
    startHighTick { s with draws := ds } = { startHighTick s with draws := ds } := by
  cases h : delayElapsed s.cfg.tReleaseUs s.inp.nowUs s.tMark <;>
    simp only [startHighTick, h, Bool.false_eq_true, if_false, if_true]

theorem respCheckTick_withDraws (ds : List TickIn) (s : State) :
    respCheckTick { s with draws := ds } = { respCheckTick s with draws := ds } := by
  cases h : s.inp.di
  · simp only [respCheckTick, h, Bool.false_eq_true, if_false]
  · rw [respCheckTick, respCheckTick, if_pos h, if_pos h, failPoll_withDraws]

theorem preLowTick_withDraws (ds : List TickIn) (s : State) :
    preLowTick { s with draws := ds } = { preLowTick s with draws := ds } := by
  cases h : waitForLevel true s.inp.di s.inp.nowUs s.deadline <;> simp only [preLowTick, h, failPoll_withDraws]

theorem preHighTick_withDraws (ds : List TickIn) (s : State) :
    preHighTick { s with draws := ds } = { preHighTick s with draws := ds } := by
  cases h : waitForLevel false s.inp.di s.inp.nowUs s.deadline <;> simp only [preHighTick, h, failPoll_withDraws]

theorem bitLowTick_withDraws (ds : List TickIn) (s : State) :
    bitLowTick { s with draws := ds } = { bitLowTick s with draws := ds } := by
  cases h : waitForLevel true s.inp.di s.inp.nowUs s.deadline <;> simp only [bitLowTick, h, failPoll_withDraws]

theorem bitHighTick_withDraws (ds : List TickIn) (s : State) :
    bitHighTick { s with draws := ds } = { bitHighTick s with draws := ds } := by
  have hz : zeroResult { s with draws := ds } = { zeroResult s with draws := ds } := by
    by_cases hp : s.bitIdx.toNat = Config.nBits - 1 ∧ s.cfg.lastBitPolicy = .one
    · rw [zeroResult, zeroResult, if_pos hp, if_pos hp, acceptBit_withDraws]
    · rw [zeroResult, zeroResult, if_neg hp, if_neg hp, failPoll_withDraws]
  rcases h : measurePulseWidth s.cfg.tBitTimeoutUs s.inp.di s.inp.nowUs s.tMark with _ | _ | r <;>
    simp only [bitHighTick, h, hz, acceptBit_withDraws]

/-- The rule of a state neither reads nor writes the schedule. -/
theorem stateRule_withDraws (ds : List TickIn) (s t : State) (h : stateRule s = .next t) :
    stateRule { s with draws := ds } = .next { t with draws := ds } := by
  obtain ⟨u, hu⟩ : ∃ u : State, u = { s with draws := ds } := ⟨_, rfl⟩
  rw [← hu]
  have hf : u.fsm = s.fsm := by rw [hu]
  have hi : u.inp = s.inp := by rw [hu]
  unfold stateRule at h ⊢
  rw [hf]
  cases hs : s.fsm <;> simp only [hs] at h ⊢
  case idle =>
    simp only [idleTick, hi] at h ⊢
    cases hv : s.inp.reqValid <;> simp only [hv, Bool.false_eq_true, if_false, if_true] at h ⊢
    · cases h
      rw [hu]
    · rw [hu]
      exact exec_withDraws ds _ s t h
  all_goals cases h; simp only [hu, startLowTick_withDraws, startHighTick_withDraws, respCheckTick_withDraws,
    preLowTick_withDraws, preHighTick_withDraws, bitLowTick_withDraws, bitHighTick_withDraws]

/-- What a tick does to the registers does not depend on what is scheduled after it. -/
theorem step_present_withDraws (d : TickIn) (ds : List TickIn) (s t : State) (h : step (present d s) = .next t) :
    step (present d { s with draws := ds }) = .next { t with draws := ds } := by
  rw [step_present] at h ⊢
  cases ha : timeAdmissible s.cfg s.inp.nowUs d.nowUs
  · rw [tickWith_of_refused d (present d s) ha] at h
    rw [tickWith_of_refused d (present d { s with draws := ds }) ha]
    cases h
    rfl
  · cases hr : d.rst
    · rw [tickWith_of_rule d (present d s) ha hr] at h
      rw [tickWith_of_rule d (present d { s with draws := ds }) ha hr]
      exact stateRule_withDraws ds _ _ h
    · rw [tickWith_of_reset d (present d s) ha hr] at h
      rw [tickWith_of_reset d (present d { s with draws := ds }) ha hr]
      cases h
      rfl

/-- A run of one tick more is a tick and then the run. -/
theorem run_succ_iff (M : Host.Core) (n : Nat) (s t : M.State) :
    M.run (n + 1) s = .next t ↔ ∃ u, M.step s = .next u ∧ M.run n u = .next t := by
  rw [Host.Core.run]
  cases M.step s <;> simp

theorem runDraws_nil (s : State) : runDraws [] s = .next { s with draws := [] } := rfl

/-- One tick of a run, then the rest of it. -/
theorem runDraws_cons_iff (d : TickIn) (ds : List TickIn) (s t : State) :
    runDraws (d :: ds) s = .next t ↔
      ∃ u, step (present d { s with draws := ds }) = .next u ∧ runDraws ds u = .next t := by
  refine (run_succ_iff Sys2Proof.core ds.length { s with draws := d :: ds } t).trans ?_
  refine exists_congr (α := State) fun u => and_congr_right fun hu => ?_
  have hd : u.draws = ds := step_draws _ _ hu
  subst hd
  exact Iff.rfl

end Sys2Proof.Machine
end

