-- ==== Sys2Proof/Laws/Platform.lean ====
section
/-! SUPPORT. What a platform's tick can do, said once: the copies tick by themselves, and the tick is admitted or not. -/

namespace Sys2Proof.Machine

/-- The copies answer next states exactly if there is one input record for each and every copy answers its own. -/
theorem tickCopies_next_iff (now : Time) (is : List PinIn) (ss ts : List State) :
    tickCopies now is ss = .next ts ↔
      is.length = ss.length ∧ ts.length = ss.length ∧
      ∀ (k : Nat) (i : PinIn) (s : State), is[k]? = some i → ss[k]? = some s →
        ∃ t, ts[k]? = some t ∧ step (present (pinDraw now i) s) = .next t := by
  induction is generalizing ss ts with
  | nil =>
    cases ss with
    | nil => simp [tickCopies, eq_comm]
    | cons s ss => simp [tickCopies]
  | cons i is ih =>
    cases ss with
    | nil => simp [tickCopies]
    | cons s ss =>
      constructor
      · intro h
        rw [tickCopies] at h
        split at h
        · next t ht =>
          split at h
          · next us hu =>
            cases h
            obtain ⟨hl, hl', hk⟩ := (ih ss us).mp hu
            refine ⟨by simp [hl], by simp [hl'], fun k j s' hj hs' => ?_⟩
            cases k with
            | zero =>
              simp only [List.getElem?_cons_zero, Option.some.injEq] at hj hs'
              subst hj hs'
              exact ⟨t, rfl, ht⟩
            | succ k => exact hk k j s' hj hs'
          · cases h
          · cases h
        · cases h
        · cases h
      · rintro ⟨hl, hl', hk⟩
        obtain ⟨t, h0, ht⟩ := hk 0 i s rfl rfl
        cases ts with
        | nil => cases h0
        | cons t' us =>
          cases h0
          have hu : tickCopies now is ss = .next us :=
            (ih ss us).mpr ⟨by simpa using hl, by simpa using hl', fun k j s' hj hs' => hk (k + 1) j s' hj hs'⟩
          rw [tickCopies, ht, hu]

/-- What a platform's tick answers: the copies' next states, admitted. -/
theorem platformTick_next_iff (x : PlatformIn) (p q : Platform) :
    platformTick x p = .next q ↔
      tickCopies x.nowUs x.pins p.pins = .next q.pins ∧ platformAdmitted q = true := by
  unfold platformTick
  cases h : tickCopies x.nowUs x.pins p.pins with
  | next ts =>
    simp only [Host.Outcome.next.injEq]
    constructor
    · intro hq
      split at hq
      · next ha =>
        cases hq
        exact ⟨rfl, ha⟩
      · cases hq
    · rintro ⟨rfl, ha⟩
      exact if_pos ha
  | fault f => simp
  | refused r => simp

/-- The copies' next states, where two of them poll, are refused. -/
theorem platformTick_of_concurrent (x : PlatformIn) (p : Platform) (ts : List State)
    (h : tickCopies x.nowUs x.pins p.pins = .next ts) (ha : platformAdmitted ⟨ts⟩ = false) :
    platformTick x p = .refused .concurrentPolls := by
  unfold platformTick
  rw [h]
  simp only [ha, Bool.false_eq_true, if_false]

/-- A tick keeps the number of copies. -/
theorem platformTick_length (x : PlatformIn) (p q : Platform) (h : platformTick x p = .next q) :
    q.pins.length = p.pins.length :=
  ((tickCopies_next_iff _ _ _ _).mp ((platformTick_next_iff x p q).mp h).1).2.1

/-- A platform after power-on has its copies, and none of them polls. -/
theorem platformReset_wf : platformWf Platform.reset := List.length_replicate

theorem platformReset_admitted : platformAdmitted Platform.reset = true := by
  have h : List.countP polling (List.replicate Config.nPins State.reset) = 0 := by
    rw [List.countP_eq_zero]
    intro s hs
    rw [List.eq_of_mem_replicate hs]
    decide
  simp only [platformAdmitted, Platform.reset, h, Nat.zero_le, decide_true]

/-- A run of one tick more is a tick and then the run. -/
theorem runPlatform_cons_iff (x : PlatformIn) (xs : List PlatformIn) (p q : Platform) :
    runPlatform (x :: xs) p = .next q ↔ ∃ r, platformTick x p = .next r ∧ runPlatform xs r = .next q := by
  rw [runPlatform]
  cases platformTick x p <;> simp

/-- A copy's draws, one tick at a time. -/
theorem drawsOfPin_cons_of_some (k : Nat) (x : PlatformIn) (xs : List PlatformIn) (i : PinIn)
    (h : x.pins[k]? = some i) : drawsOfPin k (x :: xs) = pinDraw x.nowUs i :: drawsOfPin k xs := by
  unfold drawsOfPin
  rw [List.filterMap_cons, h]
  rfl

end Sys2Proof.Machine
end

