-- ==== Sys2Proof/Tests/Slice0.lean ====
section
/-! SUPPORT. Tests on fixed values, each from the vectors of spec/95_test_vectors.md (or from the rule it names), and a
witness for every obligation that has hypotheses. -/

namespace Sys2Proof.Tests

open Sys2Proof.Machine

/-! ### Helpers -/

/-- What `f` sees in the next state an outcome answers. -/
def seen {α : Type} (o : Host.Outcome State Fault Refusal) (f : State → α) : Option α :=
  match o with
  | .next t => some (f t)
  | .fault _ => none
  | .refused _ => none

/-- A tick with the line at `di` and no request. -/
def lineAt (now : Nat) (di : Bool) : TickIn :=
  { rst := false, nowUs := BitVec.ofNat 64 now, di := di, reqValid := false, reqCmd := 0 }

/-- A tick that offers a command word. -/
def offerAt (now : Nat) (w : CmdWord) : TickIn :=
  { rst := false, nowUs := BitVec.ofNat 64 now, di := true, reqValid := true, reqCmd := w }

/-- A reset tick. -/
def resetAt (now : Nat) : TickIn :=
  { rst := true, nowUs := BitVec.ofNat 64 now, di := false, reqValid := true, reqCmd := 0b011#3 }

/-- The reset state, but for the time of the last tick. -/
def idleAt (now : Nat) : State := { State.reset with inp := lineAt now true }

/-- Idle, with the reading of the vectors HC-12 and HC-13, taken by a poll at 3000 ms. -/
def cachedAt (now : Nat) : State :=
  { idleAt now with
    humInt := 60, humFrac := 0, tempInt := 25, tempFrac := 5, valid := true, lastPollMs := 3000, lastStatus := .ok }

/-- A poll for the temperature that has just started, at 3000000 µs. -/
def started : State :=
  { idleAt 3000000 with
    fsm := .startLow, pending := some .temp, pinOe := true, pinDo := false, tMark := 3000000#64, lastPollMs := 3000 }

/-- The same poll with the line released: `f` is its state, `dl` its deadline and `mark` its mark. -/
def released (f : Fsm) (now dl mark : Nat) : State :=
  { started with
    fsm := f
    pinOe := false
    pinDo := true
    inp := lineAt now true
    deadline := BitVec.ofNat 64 dl
    tMark := BitVec.ofNat 64 mark }

/-- The same poll in the bit phase, at the bit `i` with the frame `f`. -/
def inBits (st : Fsm) (now dl mark : Nat) (i : BitVec 6) (f : Frame) : State :=
  { released st now dl mark with crit := true, bitIdx := i, frame := f }

/-- The bit 39 of the vectors LB-F and LB-1: 39 bits of `[60, 0, 25, 6, 91]`, its HIGH begun at 3021839. -/
def lastBit (p : LastBitPolicy) : State :=
  { inBits .bitHigh 3022039 0 3021839 39#6 0x1E000C832D#40 with
    cfg := { Config.hardware with lastBitPolicy := p }
    humInt := 45, tempInt := 23, valid := true, lastStatus := .ok }

/-- The own inputs of a copy of a platform: no request, and a READ_TEMPERATURE. -/
def pinIdle : PinIn := { rst := false, di := true, reqValid := false, reqCmd := 0 }

def pinRead : PinIn := { rst := false, di := true, reqValid := true, reqCmd := 0b001#3 }

/-! ### Well-formedness: each check refuses an ill-formed term -/

/-- 30_encoding.md R70: 8 does not fit three wires. -/
theorem test_wide_word_ill_formed : commandWordWf 8 = false := by decide

/-- A per-pulse deadline that reaches past the response deadline. -/
theorem test_config_ill_formed :
    Config.wf { Config.hardware with tBitTimeoutUs := 500001 } = false := by decide

/-- 30_encoding.md R80: four bytes are no frame. -/
theorem test_short_frame_ill_formed : frameBytesWf [60, 0, 25, 5] = false := by decide

/-- The well-formed side of the three checks. -/
theorem test_well_formed :
    commandWordWf 7 = true ∧ Config.hardware.wf = true ∧ frameBytesWf [60, 0, 25, 5, 90] = true := by decide

/-- 30_encoding.md R70, R73: no command can be ill formed. -/
theorem test_every_command_well_formed : Instr.all.all Instr.wf = true := by decide

/-! ### Decoding: the words of 30_encoding.md R71 -/

theorem test_decode_rsvd0 : decodeTableWord 8 0b000 = some .rsvd0 := by decide
theorem test_decode_readTemperature : decodeTableWord 8 0b001 = some .readTemperature := by decide
theorem test_decode_readHumidity : decodeTableWord 8 0b010 = some .readHumidity := by decide
theorem test_decode_hasValidData : decodeTableWord 8 0b011 = some .hasValidData := by decide
theorem test_decode_hasStaleData : decodeTableWord 8 0b100 = some .hasStaleData := by decide
theorem test_decode_readStatus : decodeTableWord 8 0b101 = some .readStatus := by decide
theorem test_decode_rsvd6 : decodeTableWord 8 0b110 = some .rsvd6 := by decide
theorem test_decode_rsvd7 : decodeTableWord 8 0b111 = some .rsvd7 := by decide

/-- The refusals are by name. -/
theorem test_decode_refuses :
    decodeTableWord 8 0b1001 = none ∧ decodeTableWord 8 0x101 = none ∧ decodeBytes [] = .error .noWord ∧
    decodeBytes [0x0A#8] = .error (.widerThanPort 10) := by decide

/-- 30_encoding.md R84: the script line of program L3.1, and one that names no command. -/
theorem test_assemble :
    assembleLine "@3000000 READ_TEMPERATURE" = some { atUs := 3000000, cmd := .readTemperature } ∧
    assembleLine "@3000000 READ_PRESSURE" = none := by decide

/-- 30_encoding.md R85: a segment `BIT1` is `L50 H70`. -/
theorem test_stimulus_bit1 :
    [0, 49, 50, 119, 120].map (expandSegments [.bit1, .lowForever]).level =
      [some false, some false, some true, some true, some false] := by decide

/-! ### The commands, each on the tick that accepts it -/

/-- HC-1. -/
theorem test_rsvd0 :
    seen (step (present (offerAt 4000000 0b000#3) (idleAt 0))) (fun t => (t.out, t.fsm)) =
      some (⟨true, true, true, 0x0000#16⟩, .idle) := by decide

/-- HC-2. -/
theorem test_rsvd6 :
    seen (step (present (offerAt 4000001 0b110#3) (idleAt 0))) (fun t => (t.out, t.fsm)) =
      some (⟨true, true, true, 0x0000#16⟩, .idle) := by decide

/-- HC-3: stale, but no poll. -/
theorem test_rsvd7 :
    seen (step (present (offerAt 4000002 0b111#3) (idleAt 0))) (fun t => (t.out, t.fsm)) =
      some (⟨true, true, true, 0x0000#16⟩, .idle) := by decide

/-- HC-14. -/
theorem test_readStatus :
    seen (step (present (offerAt 4000003 0b101#3) { idleAt 0 with lastStatus := .handshakeTimeout })) (·.out) =
      some ⟨true, true, false, 0x0003#16⟩ := by decide

/-- HC-5. -/
theorem test_hasValidData_reset :
    seen (step (present (offerAt 4000004 0b011#3) (idleAt 0))) (·.out) =
      some ⟨true, true, false, 0x0000#16⟩ := by decide

/-- Program L3.1, line 2. -/
theorem test_hasValidData_after_success :
    seen (step (present (offerAt 3021742 0b011#3) (cachedAt 3021741))) (·.out) =
      some ⟨true, true, false, 0x0001#16⟩ := by decide

/-- HC-10: at the interval, not past it. -/
theorem test_hasStaleData_fresh :
    seen (step (present (offerAt 5000999 0b100#3) (cachedAt 0))) (·.out) =
      some ⟨true, true, false, 0x0000#16⟩ := by decide

/-- HC-11. -/
theorem test_hasStaleData_stale :
    seen (step (present (offerAt 5001000 0b100#3) (cachedAt 0))) (·.out) =
      some ⟨true, true, false, 0x0001#16⟩ := by decide

/-- HC-12. -/
theorem test_readTemperature_cached :
    seen (step (present (offerAt 4000000 0b001#3) (cachedAt 0))) (fun t => (t.out, t.fsm, t.lastPollMs)) =
      some (⟨true, true, false, 0x1905#16⟩, .idle, 3000#64) := by decide

/-- The first milestone of L2.3: the tick 3000000. -/
theorem test_readTemperature_polls :
    seen (step (present (offerAt 3000000 0b001#3) (idleAt 0)))
      (fun t => (t.out.rspValid, t.fsm, t.lastPollMs, t.pending, t.pinDo, t.tMark)) =
      some (false, .startLow, 3000#64, some .temp, false, 3000000#64) := by decide

/-- HC-13. -/
theorem test_readHumidity_cached :
    seen (step (present (offerAt 4000000 0b010#3) (cachedAt 0))) (fun t => (t.out, t.fsm)) =
      some (⟨true, true, false, 0x3C00#16⟩, .idle) := by decide

/-- HC-7, its first tick. -/
theorem test_readHumidity_polls :
    seen (step (present (offerAt 4000006 0b010#3) (idleAt 0))) (fun t => (t.out.rspValid, t.lastPollMs, t.pending)) =
      some (false, 4000#64, some .hum) := by decide

/-! ### The sampler (L2.1) -/

theorem test_delay :
    delayElapsed 18000 18999#64 1000#64 = false ∧ delayElapsed 18000 19000#64 1000#64 = true ∧
    delayElapsed 0 500#64 500#64 = true := by decide

theorem test_wait_for_level :
    waitForLevel true true 600000#64 518041#64 = .success ∧ waitForLevel true false 518041#64 518041#64 = .stay ∧
    waitForLevel true false 518042#64 518041#64 = .timeout ∧ waitForLevel false true 18402#64 18401#64 = .timeout ∧
    waitForLevel false false 18402#64 18401#64 = .success := by decide

theorem test_measure_pulse_width :
    measurePulseWidth 200 false 18279#64 18251#64 = some 28 ∧ measurePulseWidth 200 false 18451#64 18251#64 = some 200 ∧
    measurePulseWidth 200 true 18451#64 18251#64 = none ∧ measurePulseWidth 200 true 18452#64 18251#64 = some 0 ∧
    measurePulseWidth 200 false 18452#64 18251#64 = some 0 ∧ measurePulseWidth 200 false 5000#64 5000#64 = some 0 := by
  decide

/-! ### The frame decoder -/

/-- The table of L1.3 (property P6), its rows 39 to 41. -/
theorem test_classify :
    [39, 40, 41].map (classify Config.hardware) = [false, false, true] ∧
    [39, 40, 41].map (classify { Config.hardware with thresholdCmp := .ge }) = [false, true, true] ∧
    [49, 50, 51].map (classify { Config.hardware with tThresholdUs := 50 }) = [false, false, true] := by decide

/-- The table of `accept_bit` in L2.4. -/
theorem test_shift :
    shiftIn 0x0000000001#40 true = 0x0000000003#40 ∧ shiftIn 0x8000000000#40 false = 0#40 ∧
    shiftIn 0x1E000C832D#40 true = 0x3C0019065B#40 := by decide

/-- Property P4 (L1.2), one byte of `[60, 0, 25, 5, 90]` after the other, from a frame of ones. -/
theorem test_frame_order :
    byteWireBits 60 = [false, false, true, true, true, true, false, false] ∧
    (byteWireBits 60).foldl shiftIn 0xFFFFFFFFFF#40 = 0xFFFFFFFF3C#40 ∧
    (byteWireBits 0).foldl shiftIn 0xFFFFFFFF3C#40 = 0xFFFFFF3C00#40 ∧
    (byteWireBits 25).foldl shiftIn 0xFFFFFF3C00#40 = 0xFFFF3C0019#40 ∧
    (byteWireBits 5).foldl shiftIn 0xFFFF3C0019#40 = 0xFF3C001905#40 ∧
    (byteWireBits 90).foldl shiftIn 0xFF3C001905#40 = 0x3C0019055A#40 := by decide

/-- The table of `check_frame` in L2.4 (property P3 among it). -/
theorem test_checksum :
    checksumOk (frameOfBytes 60 0 25 5 90) = true ∧ checksumOk (frameOfBytes 60 0 25 5 65) = false ∧
    checksumOk (frameOfBytes 255 255 255 255 252) = true ∧ checksumOk (frameOfBytes 255 255 255 255 255) = false ∧
    checksumOk (frameOfBytes 200 100 0 0 44) = true := by decide

/-- L2.3, the tick 3018000. -/
theorem test_startLow :
    seen (step (present (lineAt 3018000 false) started)) (fun t => (t.fsm, t.pinOe, t.pinDo, t.tMark)) =
      some (.startHigh, true, true, 3018000#64) := by decide

/-- L2.3, the tick 3018041. -/
theorem test_respCheck :
    seen (step (present (lineAt 3018041 false) (released .respCheck 3018040 0 3018000)))
      (fun t => (t.fsm, t.deadline)) = some (.preLow, 3518041#64) := by decide

/-- L2.7, code 2. -/
theorem test_noResponse :
    seen (step (present (lineAt 3018041 true) (released .respCheck 3018040 0 3018000)))
      (fun t => (t.fsm, t.lastStatus, t.pending, t.out)) =
      some (.idle, .noResponse, none, ⟨false, true, false, 0x0000#16⟩) := by decide

/-- P5-a. -/
theorem test_handshakeTimeout :
    seen (step (present (lineAt 3518042 false) (released .preLow 3518041 3518041 3018000)))
      (fun t => (t.fsm, t.lastStatus)) = some (.idle, .handshakeTimeout) := by decide

/-- L2.3, the tick 3018201. -/
theorem test_preHigh :
    seen (step (present (lineAt 3018201 false) (released .preHigh 3018200 3518041 3018000)))
      (fun t => (t.fsm, t.bitIdx, t.frame, t.deadline, t.crit)) = some (.bitLow, 0#6, 0#40, 3018401#64, true) := by
  decide

/-- P5-c. -/
theorem test_bitTimeout :
    seen (step (present (lineAt 3018792 false) (inBits .bitLow 3018791 3018791 0 5#6 0)))
      (fun t => (t.fsm, t.lastStatus, t.bitIdx, t.crit)) = some (.idle, .bitTimeout, 5#6, false) := by decide

/-- L2.3, the tick 3018279. -/
theorem test_bitHigh :
    seen (step (present (lineAt 3018279 false) (inBits .bitHigh 3018278 0 3018251 0#6 0)))
      (fun t => (t.fsm, t.bitIdx, t.frame, t.deadline)) = some (.bitLow, 1#6, 0#40, 3018479#64) := by decide

/-- The last tick of E2E, 3021741: bit 39 is 0. -/
theorem test_success :
    seen (step (present (lineAt 3021741 false) (inBits .bitHigh 3021740 0 3021713 39#6 0x16800B8022#40)))
      (fun t => (t.frame, t.humInt, t.tempInt, t.lastStatus, t.crit, t.out.rspData)) =
      some (0x2D00170044#40, 45#8, 23#8, .ok, false, 0x1700#16) := by decide

/-- LB-F. -/
theorem test_lastBit_fail :
    seen (step (present (lineAt 3022040 true) (lastBit .fail))) (fun t => (t.lastStatus, t.tempInt, t.out.rspData)) =
      some (.bitTimeout, 23#8, 0x1700#16) := by decide

/-- LB-1. -/
theorem test_lastBit_one :
    seen (step (present (lineAt 3022040 true) (lastBit .one))) (fun t => (t.lastStatus, t.humInt, t.out.rspData)) =
      some (.ok, 60#8, 0x1906#16) := by decide

/-! ### Reset and time -/

/-- RST-1 and RST-3: no register of the poll is left, and the request beside the reset is not answered. -/
theorem test_reset_mid_poll :
    seen (step (present (resetAt 3005000) started)) outputs =
      some ⟨false, false, false, 0x0000#16, false, true, true, false⟩ := by decide

/-- TP-1. -/
theorem test_time_back_refused :
    seen (step (present (lineAt 4999999 true) (idleAt 5000000))) (fun t => (t.timeRefused, t.out.rspValid)) =
      some (true, false) := by decide

/-- TP-2 and TP-3. -/
theorem test_time_wrap :
    seen (step (present (lineAt (2 ^ 64 - 500001) true) (idleAt 0))) (·.timeRefused) = some false ∧
    seen (step (present (lineAt (2 ^ 64 - 500000) true) (idleAt 0))) (·.timeRefused) = some true := by decide

/-- TP-4: a fall on the tick of the rise is a zero width. -/
theorem test_zero_width :
    seen (step (present (lineAt 5000 false) (inBits .bitHigh 5000 0 5000 0#6 0))) (·.lastStatus) =
      some .bitTimeout := by decide

/-- The environment: E2E-early, its first two lines. -/
theorem test_scenario :
    (let r := runScenario 5
        { script := [⟨1500000, .readTemperature⟩, ⟨1500001, .hasValidData⟩]
          polls := [], readTicks := 0, nowUs := 1500000 } State.reset
     (r.responses, r.ended)) = ([⟨1500000, false, 0x0000#16⟩, ⟨1500001, false, 0x0000#16⟩], true) := by decide

/-- 60_exceptions.md R197: the sensor wins a released line, a driven line has the block's level when no
sensor pulls, and no level, HIGH or LOW, when one does. -/
theorem test_line :
    lineLevel (released .respCheck 0 0 0) true = some false ∧ lineLevel (released .respCheck 0 0 0) false = some true ∧
    lineLevel started false = some false ∧ lineLevel { started with pinDo := true } false = some true ∧
    lineLevel started true = none ∧ lineLevel { started with pinDo := true } true = none := by decide

/-! ### Witnesses: a state and operands that meet all the hypotheses of an obligation together -/

/-- A tick is ordinary by its reset and its time alone. -/
theorem ordinary_congr (d e : TickIn) (s t : State) (h : OrdinaryTick d s) (hr : e.rst = d.rst)
    (hn : e.nowUs = d.nowUs) (hi : t.inp.nowUs = s.inp.nowUs) (hc : t.cfg = s.cfg) : OrdinaryTick e t :=
  ⟨hr.trans h.not_rst, by rw [hi, hn]; exact h.monotone, by rw [hn, hc]; exact h.no_wrap⟩

theorem ordinary_started : OrdinaryTick (lineAt 3018000 true) started := ⟨rfl, by decide, by decide⟩

theorem inv_started : RegisterInv started := by constructor <;> decide

theorem inv_respCheck : RegisterInv (released .respCheck 3018040 0 3018000) := by constructor <;> decide

theorem inv_lastBit : RegisterInv (lastBit .one) := by constructor <;> decide

theorem witness_CommandDecodeEncodeAgree : Instr.readHumidity.wf = true := by decide

/-- Both sides of the interval, at its end: 5000999 and 5001000 µs after a poll at 3000 ms. -/
theorem witness_ReadTemperaturePollsOrAnswers :
    (let s := cachedAt 5001000
     s.lastPollMs.toNat + s.cfg.minPollIntervalMs < s.inp.nowUs.toNat / 1000) ∧
    (let s := cachedAt 5000999
     ¬ s.lastPollMs.toNat + s.cfg.minPollIntervalMs < s.inp.nowUs.toNat / 1000) := by decide

/-- Both sides of the interval after reset: 2000999 and 2001000 µs (HC-8, HC-9). -/
theorem witness_ReadHumidityPollsOrAnswers :
    (let s := idleAt 2001000
     s.lastPollMs.toNat + s.cfg.minPollIntervalMs < s.inp.nowUs.toNat / 1000) ∧
    (let s := idleAt 2000999
     ¬ s.lastPollMs.toNat + s.cfg.minPollIntervalMs < s.inp.nowUs.toNat / 1000) := by decide

theorem witness_ReservedCodesAnswerTheError :
    ∃ i : Instr, (i = .rsvd0 ∨ i = .rsvd6 ∨ i = .rsvd7) ∧ decode 0b110#3 = i := ⟨.rsvd6, by decide, rfl⟩

theorem witness_CommandsChangeOnlyWhatTheirRulesName :
    (∃ t, exec .readTemperature (cachedAt 5001000) = .next t) ∧
    (∃ t, exec .readTemperature (cachedAt 5000999) = .next t) := ⟨⟨_, rfl⟩, ⟨_, rfl⟩⟩

/-- Each clause: no request, and each of the eight codes. -/
theorem witness_IdleTickRunsTheRequestedCommand :
    (idleAt 0).fsm = .idle ∧ (OrdinaryTick (lineAt 4000000 true) (idleAt 0) ∧ (lineAt 4000000 true).reqValid = false) ∧
    ∀ c : CmdWord, OrdinaryTick (offerAt 4000000 c) (idleAt 0) ∧ (offerAt 4000000 c).reqValid = true ∧
      (offerAt 4000000 c).reqCmd = c :=
  ⟨rfl, ⟨⟨rfl, by decide, by decide⟩, rfl⟩, fun _ =>
    ⟨ordinary_congr (lineAt 4000000 true) _ (idleAt 0) _ ⟨rfl, by decide, by decide⟩ rfl rfl rfl rfl, rfl, rfl⟩⟩

theorem witness_StepRunsThePlacedCommand :
    decodeTableWord 8 0b111 = some .rsvd7 ∧
    State.reset.inp.nowUs.toNat + State.reset.cfg.tRespDeadlineUs < 2 ^ 64 := by decide

theorem witness_ResetTickSetsEveryRegister :
    (resetAt 3005000).rst = true ∧ started.inp.nowUs.toNat ≤ (resetAt 3005000).nowUs.toNat ∧
    (resetAt 3005000).nowUs.toNat + started.cfg.tRespDeadlineUs < 2 ^ 64 := by decide

theorem witness_PowerOnIsAResetTick :
    (resetAt 3022040).rst = true ∧ (lastBit .one).inp.nowUs.toNat ≤ (resetAt 3022040).nowUs.toNat ∧
    (resetAt 3022040).nowUs.toNat + (lastBit .one).cfg.tRespDeadlineUs < 2 ^ 64 := by decide

/-- TP-1 breaks (a), TP-3 breaks (b), each by one. -/
theorem witness_RefusedTickChangesNoRegister :
    (lineAt 4999999 true).nowUs.toNat < (idleAt 5000000).inp.nowUs.toNat ∧
    2 ^ 64 ≤ (lineAt (2 ^ 64 - 500000) true).nowUs.toNat + (idleAt 0).cfg.tRespDeadlineUs := by decide

/-- A tick that sets the mark and one that does not. -/
theorem witness_TimeRefusedMarkIsSticky :
    (∃ t, step (present (lineAt 4999999 true) (idleAt 5000000)) = .next t ∧ t.timeRefused = true) ∧
    (∃ t, step (present (lineAt 5000000 true) (idleAt 5000000)) = .next t ∧ t.timeRefused = false) :=
  ⟨⟨_, rfl, by decide⟩, ⟨_, rfl, by decide⟩⟩

theorem witness_EveryTickSamplesItsPorts :
    ∃ t, step (present (lineAt 3018000 true) started) = .next t := ⟨_, rfl⟩

/-- One tick short of the hold, and its end. -/
theorem witness_StartLowHoldsThenDrivesHigh :
    started.fsm = .startLow ∧ OrdinaryTick (lineAt 3017999 true) started ∧ OrdinaryTick (lineAt 3018000 true) started :=
  ⟨rfl, ⟨rfl, by decide, by decide⟩, ordinary_started⟩

/-- One tick short of the release, and its tick. -/
theorem witness_StartHighHoldsThenReleases :
    (let s := { started with fsm := .startHigh, pinDo := true, tMark := 3018000#64, inp := lineAt 3018000 true }
     s.fsm = .startHigh ∧ OrdinaryTick (lineAt 3018039 true) s ∧ OrdinaryTick (lineAt 3018040 true) s) :=
  ⟨rfl, ⟨rfl, by decide, by decide⟩, ⟨rfl, by decide, by decide⟩⟩

theorem witness_RespCheckTakesOneSample :
    (let s := released .respCheck 3018040 0 3018000
     s.fsm = .respCheck ∧ OrdinaryTick (lineAt 3018041 true) s ∧ OrdinaryTick (lineAt 3018041 false) s) :=
  ⟨rfl, ⟨rfl, by decide, by decide⟩, ⟨rfl, by decide, by decide⟩⟩

/-- At the deadline and past it. -/
theorem witness_PreLowWaitsForHigh :
    (let s := released .preLow 3518040 3518041 3018000
     s.fsm = .preLow ∧ OrdinaryTick (lineAt 3518041 false) s ∧ OrdinaryTick (lineAt 3518042 false) s ∧
       OrdinaryTick (lineAt 3518042 true) s) :=
  ⟨rfl, ⟨rfl, by decide, by decide⟩, ⟨rfl, by decide, by decide⟩, ⟨rfl, by decide, by decide⟩⟩

theorem witness_PreHighWaitsForLowAndEntersTheBits :
    (let s := released .preHigh 3518040 3518041 3018000
     s.fsm = .preHigh ∧ OrdinaryTick (lineAt 3518041 true) s ∧ OrdinaryTick (lineAt 3518042 true) s ∧
       OrdinaryTick (lineAt 3518042 false) s) :=
  ⟨rfl, ⟨rfl, by decide, by decide⟩, ⟨rfl, by decide, by decide⟩, ⟨rfl, by decide, by decide⟩⟩

theorem witness_BitLowWaitsForTheRise :
    (let s := inBits .bitLow 3018790 3018791 0 5#6 0
     s.fsm = .bitLow ∧ OrdinaryTick (lineAt 3018791 false) s ∧ OrdinaryTick (lineAt 3018792 false) s ∧
       OrdinaryTick (lineAt 3018792 true) s) :=
  ⟨rfl, ⟨rfl, by decide, by decide⟩, ⟨rfl, by decide, by decide⟩, ⟨rfl, by decide, by decide⟩⟩

/-- A width of 0, of 200 and of 201, with the line fallen and still HIGH. -/
theorem witness_BitHighMeasuresThePulse :
    (let s := inBits .bitHigh 3018251 0 3018251 0#6 0
     s.fsm = .bitHigh ∧ OrdinaryTick (lineAt 3018251 false) s ∧ OrdinaryTick (lineAt 3018451 false) s ∧
       OrdinaryTick (lineAt 3018451 true) s ∧ OrdinaryTick (lineAt 3018452 true) s) :=
  ⟨rfl, ⟨rfl, by decide, by decide⟩, ⟨rfl, by decide, by decide⟩, ⟨rfl, by decide, by decide⟩,
    ⟨rfl, by decide, by decide⟩⟩

/-- Bit 39 under each policy, and bit 38. -/
theorem witness_ZeroResultFollowsTheLastBitPolicy :
    ((lastBit .one).bitIdx = 39#6 ∧ (lastBit .one).cfg.lastBitPolicy = .one) ∧
    ¬ ((lastBit .fail).bitIdx = 39#6 ∧ (lastBit .fail).cfg.lastBitPolicy = .one) ∧
    (let s := { lastBit .one with bitIdx := 38#6 }
     ¬ (s.bitIdx = 39#6 ∧ s.cfg.lastBitPolicy = .one)) := by decide

theorem witness_SuccessWritesTheReadingAndAnswers : (lastBit .one).pending = some .temp := by decide

theorem witness_FailureKeepsTheCacheAndAnswers : (lastBit .fail).pending = some .temp := by decide

/-- In the bit phase, on the tick that ends the poll. -/
theorem witness_EveryStepKeepsTheRegisterInvariants :
    ∃ t, RegisterInv (lastBit .one) ∧ step (present (lineAt 3022040 true) (lastBit .one)) = .next t ∧ t.fsm = .idle :=
  ⟨_, inv_lastBit, rfl, by decide⟩

theorem witness_EveryStepKeepsTheTimeInvariant :
    ∃ t, TimeInv started ∧ Observable started ∧ step (present (lineAt 3018000 true) started) = .next t :=
  ⟨_, fun _ => by decide, rfl, rfl⟩

/-- TP-2: the last time that premise (b) admits. -/
theorem witness_StoredDeadlinesDoNotWrap :
    (idleAt 0).cfg.wf = true ∧ OrdinaryTick (lineAt (2 ^ 64 - 500001) true) (idleAt 0) :=
  ⟨by decide, rfl, by decide, by decide⟩

theorem witness_FsmMovesAlongTheNamedEdges :
    ∃ t, step (present (lineAt 3018000 true) started) = .next t ∧ t.inp.rst = false ∧ t.fsm ≠ started.fsm :=
  ⟨_, rfl, by decide, by decide⟩

theorem witness_OnlyAStaleReadLeavesIdle :
    ∃ t, step (present (offerAt 5001000 0b010#3) (cachedAt 0)) = .next t ∧ (cachedAt 0).fsm = .idle ∧ t.fsm ≠ .idle :=
  ⟨_, rfl, by decide, by decide⟩

/-- Both alternatives: a reset, and a poll's start. -/
theorem witness_LastPollIsWrittenOnlyAtAPollStart :
    (∃ t, step (present (resetAt 3005000) started) = .next t ∧ t.lastPollMs ≠ started.lastPollMs) ∧
    (∃ t, step (present (offerAt 5001000 0b010#3) (cachedAt 0)) = .next t ∧ t.lastPollMs ≠ (cachedAt 0).lastPollMs) :=
  ⟨⟨_, rfl, by decide⟩, ⟨_, rfl, by decide⟩⟩

/-- Both alternatives: a reset, and the last bit of a frame that passes. -/
theorem witness_ReadingsChangeOnlyOnAValidFrame :
    (∃ t, step (present (resetAt 4000000) (cachedAt 0)) = .next t ∧ t.humInt ≠ (cachedAt 0).humInt) ∧
    (∃ t, step (present (lineAt 3022040 true) (lastBit .one)) = .next t ∧ t.humInt ≠ (lastBit .one).humInt) :=
  ⟨⟨_, rfl, by decide⟩, ⟨_, rfl, by decide⟩⟩

theorem witness_LastStatusIsWrittenOnlyAtAPollEnd :
    ∃ t, step (present (lineAt 3022040 true) (lastBit .fail)) = .next t ∧ t.inp.rst = false ∧
      t.lastStatus ≠ (lastBit .fail).lastStatus ∧ (lastBit .fail).fsm ≠ .idle ∧ t.fsm = .idle :=
  ⟨_, rfl, by decide, by decide, by decide, by decide⟩

theorem witness_BetweenResetsValidStaysAndLastPollGrows :
    ∃ t, step (present (lineAt 3022040 true) (lastBit .fail)) = .next t ∧ t.inp.rst = false ∧
      (lastBit .fail).valid = true :=
  ⟨_, rfl, by decide, by decide⟩

/-- The end of a poll, and the accepted command that starts none. -/
theorem witness_ATickRespondsExactlyOnCompletion :
    (∃ t, RegisterInv (lastBit .one) ∧ OrdinaryTick (lineAt 3022040 true) (lastBit .one) ∧
      step (present (lineAt 3022040 true) (lastBit .one)) = .next t ∧ (lastBit .one).fsm ≠ .idle ∧ t.fsm = .idle) ∧
    (∃ t, RegisterInv (cachedAt 0) ∧ OrdinaryTick (offerAt 4000000 0b001#3) (cachedAt 0) ∧
      step (present (offerAt 4000000 0b001#3) (cachedAt 0)) = .next t ∧ (cachedAt 0).fsm = .idle ∧ t.fsm = .idle) :=
  ⟨⟨_, inv_lastBit, ⟨rfl, by decide, by decide⟩, rfl, by decide, by decide⟩,
    ⟨_, by constructor <;> decide, ⟨rfl, by decide, by decide⟩, rfl, by decide, by decide⟩⟩

/-- Each of the three codes, and a busy, a reset and a refused tick, which set no error. -/
theorem witness_ErrorOnlyForAnAcceptedReservedCode :
    (∃ t, step (present (offerAt 4000000 0b000#3) (idleAt 0)) = .next t ∧ t.out.rspErr = true) ∧
    (∃ t, step (present (offerAt 4000001 0b110#3) (idleAt 0)) = .next t ∧ t.out.rspErr = true) ∧
    (∃ t, step (present (offerAt 4000002 0b111#3) (idleAt 0)) = .next t ∧ t.out.rspErr = true) ∧
    (∃ t, step (present (offerAt 3000100 0b111#3) started) = .next t ∧ t.out.rspErr = false) ∧
    (∃ t, step (present { resetAt 4000000 with reqCmd := 0b111#3 } (idleAt 0)) = .next t ∧ t.out.rspErr = false) ∧
    (∃ t, step (present (offerAt 4999999 0b111#3) (idleAt 5000000)) = .next t ∧ t.out.rspErr = false) :=
  ⟨⟨_, rfl, by decide⟩, ⟨_, rfl, by decide⟩, ⟨_, rfl, by decide⟩, ⟨_, rfl, by decide⟩, ⟨_, rfl, by decide⟩,
    ⟨_, rfl, by decide⟩⟩

theorem witness_RequestsAreIgnoredWhileAPollRuns :
    ∃ t, started.fsm ≠ .idle ∧ step (present (offerAt 3000100 0b011#3) started) = .next t := ⟨_, by decide, rfl⟩

/-- Each of the three states. -/
theorem witness_TheLineIsIgnoredWhereItIsNotRead :
    (∃ t, (idleAt 0).fsm = .idle ∧ step (present (lineAt 1 true) (idleAt 0)) = .next t) ∧
    (∃ t, started.fsm = .startLow ∧ step (present (lineAt 3018000 true) started) = .next t) ∧
    (∃ t, { started with fsm := .startHigh }.fsm = .startHigh ∧
      step (present (lineAt 3018040 true) { started with fsm := .startHigh }) = .next t) :=
  ⟨⟨_, rfl, rfl⟩, ⟨_, rfl, rfl⟩, ⟨_, rfl, rfl⟩⟩

/-- The HIGH of bit 38, and the LOW of bit 39. -/
theorem witness_TheLastBitPolicyTouchesOnlyBit39 :
    (∃ t, (inBits .bitHigh 3018278 0 3018251 38#6 0).bitIdx ≠ 39#6 ∧
      step (present (lineAt 3018452 true) (inBits .bitHigh 3018278 0 3018251 38#6 0)) = .next t) ∧
    (∃ t, (inBits .bitLow 3021789 3021989 0 39#6 0).fsm ≠ .bitHigh ∧
      step (present (lineAt 3021990 false) (inBits .bitLow 3021789 3021989 0 39#6 0)) = .next t) :=
  ⟨⟨_, by decide, rfl⟩, ⟨_, by decide, rfl⟩⟩

/-- Each clause at the first time that meets it. -/
theorem witness_EveryBusyStateIsLeftWhenItsTimeIsUp :
    (OrdinaryTick (lineAt 3018000 true) started ∧ started.fsm = .startLow ∧
      started.tMark.toNat + started.cfg.tStartUs ≤ (lineAt 3018000 true).nowUs.toNat) ∧
    (let s := { started with fsm := .startHigh, tMark := 3018000#64 }
     OrdinaryTick (lineAt 3018040 true) s ∧ s.fsm = .startHigh ∧
      s.tMark.toNat + s.cfg.tReleaseUs ≤ (lineAt 3018040 true).nowUs.toNat) ∧
    (let s := released .respCheck 3018040 0 3018000
     OrdinaryTick (lineAt 3018041 false) s ∧ s.fsm = .respCheck) ∧
    (∀ f ∈ [Fsm.preLow, .preHigh, .bitLow],
      let s := released f 3518041 3518041 3018000
      OrdinaryTick (lineAt 3518042 true) s ∧ s.fsm = f ∧ s.deadline.toNat < (lineAt 3518042 true).nowUs.toNat) ∧
    (OrdinaryTick (lineAt 3022040 true) (lastBit .fail) ∧ (lastBit .fail).fsm = .bitHigh ∧
      (lastBit .fail).tMark.toNat + (lastBit .fail).cfg.tBitTimeoutUs < (lineAt 3022040 true).nowUs.toNat) :=
  ⟨⟨ordinary_started, by decide⟩, ⟨⟨rfl, by decide, by decide⟩, by decide⟩, ⟨⟨rfl, by decide, by decide⟩, by decide⟩,
    fun _ _ => ⟨ordinary_congr _ _ (released .preLow 3518041 3518041 3018000) _ ⟨rfl, by decide, by decide⟩ rfl rfl rfl rfl,
      rfl, show (released .preLow 3518041 3518041 3018000).deadline.toNat < (lineAt 3518042 true).nowUs.toNat by decide⟩, ⟨⟨rfl, by decide, by decide⟩, by decide⟩⟩

theorem witness_NoSensorMeansNoResponse :
    (let s := released .respCheck 3018040 0 3018000
     RegisterInv s ∧ s.fsm = .respCheck ∧ OrdinaryTick (lineAt 3018041 true) s ∧
       lineLevel s false = some (lineAt 3018041 true).di) :=
  ⟨inv_respCheck, rfl, ⟨rfl, by decide, by decide⟩, by decide⟩

/-- Both margins at their ends, with ticks at most 5 µs apart: a 0 of 35 µs measured as 39, and a 1 of 45 µs measured
as 41. -/
theorem witness_ClassificationHasItsMargins :
    Config.hardware.thresholdCmp = .gt ∧ (39 < 35 + 5 ∧ 35 < 39 + 5 ∧ 35 + 5 ≤ Config.hardware.tThresholdUs) ∧
    (41 < 45 + 5 ∧ 45 < 41 + 5 ∧ Config.hardware.tThresholdUs + 5 ≤ 45) := by decide

theorem witness_PlatformCopiesDoNotInteract :
    [pinIdle, pinRead].length = (Platform.mk [started, idleAt 0]).pins.length ∧
    [pinIdle, pinRead][1]? = some pinRead ∧ (Platform.mk [started, idleAt 0]).pins[1]? = some (idleAt 0) :=
  ⟨rfl, rfl, rfl⟩

/-- Each clause: no input for the second copy; a READ while the other copy polls; and no READ. -/
theorem witness_TwoPollsAtOnceAreNotAdmitted :
    (let p : Platform := ⟨[started, idleAt 0]⟩
     [pinIdle].length ≠ p.pins.length ∧
     (∃ s t, tickCopies 3000100#64 [pinIdle, pinRead] p.pins = .next [s, t] ∧ s.fsm ≠ .idle ∧ t.fsm ≠ .idle) ∧
     (∃ s t, tickCopies 3000100#64 [pinIdle, pinIdle] p.pins = .next [s, t] ∧ s.fsm ≠ .idle ∧ t.fsm = .idle)) :=
  ⟨by decide, ⟨_, _, rfl, by decide, by decide⟩, ⟨_, _, rfl, by decide, by decide⟩⟩

/-- Two ticks of two copies, the second of which polls. -/
theorem witness_AnAdmittedPlatformRunIsEachCopysOwnRun :
    (let p : Platform := ⟨[idleAt 0, idleAt 0]⟩
     platformAdmitted p = true ∧ p.pins[1]? = some (idleAt 0) ∧
     ∃ q, runPlatform [⟨3000000#64, [pinIdle, pinRead]⟩, ⟨3018000#64, [pinIdle, pinIdle]⟩] p = .next q ∧
       (q.pins.map State.fsm) = [.idle, .startHigh]) := ⟨by decide, rfl, _, rfl, by decide⟩

/-- After a reset at 0, a READ at the last µs at which none polls: 2000999 (HC-8, E2E-early). -/
theorem witness_NoPollBeforeTheFirstInterval :
    ∃ r t, (resetAt 0).rst = true ∧ (cachedAt 0).inp.nowUs.toNat ≤ (resetAt 0).nowUs.toNat ∧
      (resetAt 0).nowUs.toNat + (cachedAt 0).cfg.tRespDeadlineUs < 2 ^ 64 ∧
      step (present (resetAt 0) (cachedAt 0)) = .next r ∧
      (∀ e ∈ [offerAt 2000999 0b001#3], e.nowUs.toNat / 1000 ≤ (cachedAt 0).cfg.minPollIntervalMs) ∧
      runDraws [offerAt 2000999 0b001#3] r = .next t ∧ t.timeRefused = false ∧ t.inp.rst = false ∧
      t.inp.reqValid = true ∧ decode t.inp.reqCmd = .readTemperature :=
  ⟨_, _, rfl, by decide, by decide, rfl, by decide, rfl, by decide, by decide, by decide, by decide⟩

/-- RST-1, and an idle tick after it. -/
theorem witness_AResetAbandonsThePoll :
    ∃ r t, (resetAt 3005000).rst = true ∧ started.inp.nowUs.toNat ≤ (resetAt 3005000).nowUs.toNat ∧
      (resetAt 3005000).nowUs.toNat + started.cfg.tRespDeadlineUs < 2 ^ 64 ∧
      step (present (resetAt 3005000) started) = .next r ∧ (∀ e ∈ [lineAt 3005001 true], e.reqValid = false) ∧
      runDraws [lineAt 3005001 true] r = .next t :=
  ⟨_, _, rfl, by decide, by decide, rfl, by decide, rfl⟩

/-- A run that starts a poll, and one that does not. -/
theorem witness_PollStartsAreTheIntervalApart :
    (∃ t, noReset [lineAt 4000000 true, offerAt 5001000 0b001#3] ∧
      runDraws [lineAt 4000000 true, offerAt 5001000 0b001#3] (cachedAt 0) = .next t ∧ t.lastPollMs = 5001#64) ∧
    (∃ t, noReset [offerAt 5000999 0b001#3] ∧ runDraws [offerAt 5000999 0b001#3] (cachedAt 0) = .next t ∧
      t.lastPollMs = 3000#64) :=
  ⟨⟨_, by unfold noReset; decide, rfl, by decide⟩, ⟨_, by unfold noReset; decide, rfl, by decide⟩⟩

/-- L2.7, code 2: the poll that no sensor answers. -/
theorem witness_APollIsASuccessOrLeavesTheCache :
    ∃ u t, RegisterInv started ∧ started.fsm = .startLow ∧ started.pending = some .temp ∧
      noReset ([lineAt 3018000 true, lineAt 3018040 true] ++ [lineAt 3018041 true]) ∧
      runDraws [lineAt 3018000 true, lineAt 3018040 true] started = .next u ∧ u.fsm ≠ .idle ∧
      u.lastPollMs = started.lastPollMs ∧ step (present (lineAt 3018041 true) u) = .next t ∧ t.fsm = .idle :=
  ⟨_, _, inv_started, rfl, rfl, by unfold noReset; decide, rfl, by decide, by decide, rfl, by decide⟩

/-- Forty cells `L50 H40` (TH-1). -/
theorem witness_FortyPulsesDecodeToTheirFrame :
    (let s := inBits .bitLow 3018201 3018401 3018000 0#6 0
     let cells := List.replicate 40 (50, 40)
     s.fsm = .bitLow ∧ s.bitIdx = 0 ∧ s.pending = some .temp ∧ cells.length = 40 ∧
       (∀ c ∈ cells, 0 < c.2 ∧ c.2 ≤ s.cfg.tBitTimeoutUs) ∧
       trainEnd s.inp.nowUs.toNat cells + s.cfg.tRespDeadlineUs < 2 ^ 64) := by decide

theorem witness_APollEndsWithinItsWorstCase :
    ∃ t, started.cfg = Config.hardware ∧ started.fsm = .startLow ∧ started.tMark = started.inp.nowUs ∧
      noReset ([lineAt 3018000 true] ++ [lineAt 3018040 true]) ∧
      timesAdmissible started.cfg started.inp.nowUs ([lineAt 3018000 true] ++ [lineAt 3018040 true]) ∧
      ticksSpaced 18000 started.inp.nowUs ([lineAt 3018000 true] ++ [lineAt 3018040 true]) ∧
      runDraws [lineAt 3018000 true] started = .next t ∧ t.fsm ≠ .idle ∧ t.lastPollMs = started.lastPollMs :=
  ⟨_, by decide, rfl, by decide, by unfold noReset; decide, ⟨by decide, by decide, trivial⟩,
    ⟨by decide, by decide, trivial⟩, rfl, by decide, by decide⟩

/-- Two idle blocks, one after a poll. -/
theorem witness_LeftoverSequencingIsUnobservable :
    ∃ s', SameButLeftovers (idleAt 0) { idleAt 0 with bitIdx := 39#6, frame := 0x2D00170044#40, deadline := 7 } ∧
      runDraws [offerAt 2001000 0b001#3] (idleAt 0) = .next s' :=
  ⟨_, ⟨rfl, by decide, by decide, by decide⟩, rfl⟩

end Sys2Proof.Tests
end

section
/-! PROOFS. The next-state function is total (00_scope.md R6): no command, no state rule and so no step ends a run. -/

namespace Sys2Proof.Machine

/-- No command faults or is refused: each of the eight arms of the dispatch gives a next state (42_host_commands.md
R171). -/
theorem exec_answers_next (i : Instr) (s : State) : ∃ t, exec i s = .next t := by
  cases i <;> exact ⟨_, rfl⟩

/-- With or without a request, IDLE answers a next state: the state itself, or the one its command answers. -/
theorem idleTick_answers_next (s : State) : ∃ t, idleTick s = .next t := by
  unfold idleTick
  split
  · exact exec_answers_next (decode s.inp.reqCmd) s
  · exact ⟨s, rfl⟩

/-- Only IDLE runs a command; the rules of the seven busy states are functions into the states
(41_frame_decoder.md R120). -/
theorem stateRule_answers_next (s : State) : ∃ t, stateRule s = .next t := by
  unfold stateRule
  cases s.fsm
  case idle => exact idleTick_answers_next s
  all_goals exact ⟨_, rfl⟩

/-- A tick answers a next state on any draw: refused for its time, a reset, or the rule of its state. -/
theorem tickWith_answers_next (d : TickIn) (s : State) : ∃ t, tickWith d s = .next t := by
  cases ha : timeAdmissible s.cfg s.inp.nowUs d.nowUs
  · exact ⟨_, tickWith_of_refused d s ha⟩
  · cases hr : d.rst
    · rw [tickWith_of_rule d s ha hr]
      exact stateRule_answers_next (latch d s)
    · exact ⟨_, tickWith_of_reset d s ha hr⟩

/-- Settles O18: a step is the tick of the next draw, and a tick answers a next state on every draw. -/
theorem everyStepAnswersANextState : Obligations.EveryStepAnswersANextState := by
  unfold Obligations.EveryStepAnswersANextState
  intro s
  exact tickWith_answers_next (nextDraw s) s

end Sys2Proof.Machine
end

section
/-! PROOFS. What one state rule and one step can do, as one case analysis that every whole-machine statement uses
(41_frame_decoder.md R120 to R137, 42_host_commands.md R164). -/

namespace Sys2Proof.Machine

/-- The moves of a state rule: `RuleMove u t` says that the rule of `u`'s FSM state, with the inputs sampled, may give
`t`. One constructor per way a rule can end; `stateRule_move` ties it to the model. -/
inductive RuleMove (u : State) : State → Prop where
  /-- No request in IDLE, or a busy state whose time is not up. -/
  | wait : RuleMove u u
  /-- A command that does not start a poll is answered at once. -/
  | respond (data : RspWord) (err : Bool) (hf : u.fsm = .idle) (hv : u.inp.reqValid = true) :
      RuleMove u (respond data err u)
  /-- An accepted READ, when stale, starts a poll (42_host_commands.md R164). -/
  | startPoll (k : ReadKind) (hf : u.fsm = .idle) (hv : u.inp.reqValid = true)
      (hk : decode u.inp.reqCmd = .readTemperature ∧ k = .temp ∨ decode u.inp.reqCmd = .readHumidity ∧ k = .hum)
      (hs : isStale u = true) : RuleMove u (startPoll k u)
  /-- START_LOW ends (41_frame_decoder.md R123). -/
  | driveHigh (hf : u.fsm = .startLow) :
      RuleMove u { u with pinDo := true, tMark := u.inp.nowUs, fsm := .startHigh }
  /-- START_HIGH ends (R124). -/
  | release (hf : u.fsm = .startHigh) : RuleMove u { u with pinOe := false, pinPu := true, fsm := .respCheck }
  /-- The sensor answers (R125). -/
  | sensorAnswers (hf : u.fsm = .respCheck) :
      RuleMove u { u with deadline := deadlineAfter u.inp.nowUs u.cfg.tRespDeadlineUs, fsm := .preLow }
  /-- The preamble's LOW ends (R126). -/
  | preambleRises (hf : u.fsm = .preLow) : RuleMove u { u with fsm := .preHigh }
  /-- The preamble's HIGH ends and the bit phase begins (R127). -/
  | enterBitPhase (hf : u.fsm = .preHigh) :
      RuleMove u { u with
        bitIdx := 0
        frame := 0
        deadline := deadlineAfter u.inp.nowUs u.cfg.tBitTimeoutUs
        crit := true
        fsm := .bitLow }
  /-- A bit cell's LOW ends (R128). -/
  | bitRises (hf : u.fsm = .bitLow) : RuleMove u { u with tMark := u.inp.nowUs, fsm := .bitHigh }
  /-- A bit before bit 39 is accepted (R132, R133). -/
  | nextBit (b : Bool) (hf : u.fsm = .bitHigh) (hi : u.bitIdx.toNat < 39) :
      RuleMove u { u with
        frame := shiftIn u.frame b
        bitIdx := u.bitIdx + 1
        deadline := deadlineAfter u.inp.nowUs u.cfg.tBitTimeoutUs
        fsm := .bitLow }
  /-- The last bit completes a frame whose checksum passes (R134, R135). -/
  | frameOk (f : Frame) (hf : u.fsm = .bitHigh) (hi : 39 ≤ u.bitIdx.toNat) (hb : ∃ b, f = shiftIn u.frame b)
      (hc : checksumOk f = true) :
      RuleMove u (success (frameByte f 0) (frameByte f 1) (frameByte f 2) (frameByte f 3)
        { u with frame := f, crit := false })
  /-- The last bit completes a frame whose checksum does not pass (R134, R137). -/
  | frameBad (f : Frame) (hf : u.fsm = .bitHigh) (hi : 39 ≤ u.bitIdx.toNat) (hb : ∃ b, f = shiftIn u.frame b)
      (hc : checksumOk f = false) :
      RuleMove u (failPoll .checksumMismatch { u with frame := f, crit := false })
  /-- A state that reads the line gives the poll up, with a code other than NONE (R125 to R130, R137). -/
  | giveUp (code : Status) (hf : readsLine u.fsm = true) (hc : code ≠ .noPoll) : RuleMove u (failPoll code u)

variable {s t u : State}

/-- What a command does is a move of IDLE. -/
theorem exec_move (hf : u.fsm = .idle) (hv : u.inp.reqValid = true) (h : exec (decode u.inp.reqCmd) u = .next t) :
    RuleMove u t := by
  obtain ⟨k, hk, hs, rfl⟩ | ⟨data, -, rfl⟩ | ⟨-, rfl⟩ := exec_cases _ u t h
  · exact .startPoll k hf hv hk hs
  · exact .respond data false hf hv
  · exact .respond errorWord true hf hv

/-- What BIT_HIGH does is a move: it waits, gives up, goes on to the next bit, or ends the frame. -/
theorem bitHighTick_move (hf : u.fsm = .bitHigh) : RuleMove u (bitHighTick u) := by
  obtain e | e | ⟨b, hi, e⟩ | ⟨b, hi, e⟩ := bitHighTick_outcomes u <;> rw [e]
  · exact .wait
  · exact .giveUp .bitTimeout (by rw [hf]; rfl) (by decide)
  · exact .nextBit b hf hi
  · obtain ⟨hc, e⟩ | ⟨hc, e⟩ :=
      checkFrame_cases (shiftIn u.frame b) { u with frame := shiftIn u.frame b, crit := false } <;> rw [e]
    · exact .frameOk _ hf hi ⟨b, rfl⟩ hc
    · exact .frameBad _ hf hi ⟨b, rfl⟩ hc

/-- Whatever the rule of a state answers is one of its moves. -/
theorem stateRule_move (h : stateRule u = .next t) : RuleMove u t := by
  obtain ⟨-, -, rfl⟩ | ⟨hf, hv, h⟩ | ⟨hf, rfl⟩ | ⟨hf, rfl⟩ | ⟨hf, rfl⟩ | ⟨hf, rfl⟩ | ⟨hf, rfl⟩ | ⟨hf, rfl⟩ |
    ⟨hf, rfl⟩ := stateRule_cases u t h
  · exact .wait
  · exact exec_move hf hv h
  · obtain ⟨-, e⟩ | ⟨-, e⟩ := startLowTick_cases u <;> rw [e]
    · exact .driveHigh hf
    · exact .wait
  · obtain ⟨-, e⟩ | ⟨-, e⟩ := startHighTick_cases u <;> rw [e]
    · exact .release hf
    · exact .wait
  · obtain ⟨-, e⟩ | ⟨-, e⟩ := respCheckTick_cases u <;> rw [e]
    · exact .giveUp .noResponse (by rw [hf]; rfl) (by decide)
    · exact .sensorAnswers hf
  · obtain ⟨-, e⟩ | ⟨-, -, e⟩ | ⟨-, -, e⟩ := preLowTick_cases u <;> rw [e]
    · exact .preambleRises hf
    · exact .giveUp .handshakeTimeout (by rw [hf]; rfl) (by decide)
    · exact .wait
  · obtain ⟨-, e⟩ | ⟨-, -, e⟩ | ⟨-, -, e⟩ := preHighTick_cases u <;> rw [e]
    · exact .enterBitPhase hf
    · exact .giveUp .handshakeTimeout (by rw [hf]; rfl) (by decide)
    · exact .wait
  · obtain ⟨-, e⟩ | ⟨-, -, e⟩ | ⟨-, -, e⟩ := bitLowTick_cases u <;> rw [e]
    · exact .bitRises hf
    · exact .giveUp .bitTimeout (by rw [hf]; rfl) (by decide)
    · exact .wait
  · exact bitHighTick_move hf

/-- A step is refused for its time, a reset, or a move of the state's rule from the sampled state. -/
theorem step_move (h : step s = .next t) :
    t = refuseTime (latch (nextDraw s) s) ∨
    ((nextDraw s).rst = true ∧ t = resetRegisters (latch (nextDraw s) s)) ∨
    ((nextDraw s).rst = false ∧ RuleMove (latch (nextDraw s) s) t) := by
  obtain ⟨-, e⟩ | ⟨-, hr, e⟩ | ⟨-, hr, h⟩ := step_cases s t h
  · exact .inl e
  · exact .inr (.inl ⟨hr, e⟩)
  · exact .inr (.inr ⟨hr, stateRule_move h⟩)

/-- A step whose tick is no reset. -/
theorem step_move_of_not_rst (h : step s = .next t) (hr : t.inp.rst = false) :
    t = refuseTime (latch (nextDraw s) s) ∨ RuleMove (latch (nextDraw s) s) t := by
  obtain e | ⟨hr', rfl⟩ | ⟨-, hm⟩ := step_move h
  · exact .inl e
  · exact absurd (hr.symm.trans hr') Bool.false_ne_true
  · exact .inr hm

/-! ### What a tick samples -/

/-- The answer of `complete` leaves `req_ready` as it was sampled. -/
@[simp] theorem respondPending_out_reqReady (s : State) : (respondPending s).out.reqReady = s.out.reqReady := by
  obtain ⟨k, -, e⟩ | ⟨-, e⟩ := respondPending_out_cases s <;> rw [e]

@[simp] theorem success_out_reqReady (b0 b1 b2 b3 : Byte) (s : State) :
    (success b0 b1 b2 b3 s).out.reqReady = s.out.reqReady := respondPending_out_reqReady _

/-- No rule touches the parameters, the sampled inputs, `req_ready` or the tick counter. -/
theorem RuleMove.keeps_sampled (hm : RuleMove u t) :
    t.cfg = u.cfg ∧ t.inp = u.inp ∧ t.tickNo = u.tickNo ∧ t.out.reqReady = u.out.reqReady := by
  cases hm <;> simp

/-- Settles O19: a tick starts by sampling its ports (`latch`), and neither a refusal, a reset nor a rule touches what it
sampled. -/
theorem everyTickSamplesItsPorts : Obligations.EveryTickSamplesItsPorts := by
  unfold Obligations.EveryTickSamplesItsPorts
  intro s t h
  have kept : t.cfg = s.cfg ∧ t.inp = nextDraw s ∧ t.tickNo = s.tickNo + 1 ∧
      t.out.reqReady = (latch (nextDraw s) s).out.reqReady := by
    obtain rfl | ⟨-, rfl⟩ | ⟨-, hm⟩ := step_move h
    · exact ⟨rfl, rfl, rfl, rfl⟩
    · exact ⟨rfl, rfl, rfl, rfl⟩
    · exact hm.keeps_sampled
  obtain ⟨hcfg, hinp, hno, hready⟩ := kept
  refine ⟨hcfg, hinp, step_draws s t h, hno, ?_⟩
  rw [hready, hinp]
  simp [and_comm]

end Sys2Proof.Machine
end

section
/-! PROOFS. The invariants and whole-machine rules of 10_state.md on the registers, each from the moves of a rule. -/

namespace Sys2Proof.Machine

variable {s t u : State}

/-! ### The register invariants (10_state.md R38) -/

/-- Settles O33. -/
theorem invariantsHoldAtReset : Obligations.InvariantsHoldAtReset := by
  unfold Obligations.InvariantsHoldAtReset
  have hr : RegisterInv State.reset := by constructor <;> decide
  have ht : TimeInv State.reset := fun _ => by decide
  exact ⟨hr, ht⟩

/-- The invariants speak of registers only, and sampling the ports writes none. -/
theorem registerInv_latch (d : TickIn) (h : RegisterInv s) : RegisterInv (latch d s) :=
  ⟨h.pending_none_iff_idle, h.crit_iff_bit_phase, h.cache_zero_until_valid, h.bitIdx_lt, h.driven_iff_start,
    h.low_iff_startLow, h.pullup_on⟩

theorem registerInv_refuseTime (h : RegisterInv s) : RegisterInv (refuseTime s) :=
  ⟨h.pending_none_iff_idle, h.crit_iff_bit_phase, h.cache_zero_until_valid, h.bitIdx_lt, h.driven_iff_start,
    h.low_iff_startLow, h.pullup_on⟩

/-- A reset establishes the invariants from any state. -/
theorem registerInv_resetRegisters (s : State) : RegisterInv (resetRegisters s) := by
  constructor <;> simp [inBitPhase]

/-- `fail` returns to IDLE with the line released: the invariants hold after it if the block was not driving LOW. -/
theorem registerInv_failPoll (code : Status) (f : Frame) (c : Bool) (h : RegisterInv u) (hf : readsLine u.fsm = true) :
    RegisterInv (failPoll code { u with frame := f, crit := c }) where
  pending_none_iff_idle := by simp
  crit_iff_bit_phase := by simp [inBitPhase]
  cache_zero_until_valid := by simpa using h.cache_zero_until_valid
  bitIdx_lt := by simpa using h.bitIdx_lt
  driven_iff_start := by simp
  low_iff_startLow := by
    have hne : u.fsm ≠ .startLow := by rintro e; simp [e, readsLine] at hf
    simpa [hne] using h.low_iff_startLow
  pullup_on := by simp

/-- Every move of a rule keeps the register invariants. The moves to IDLE by `fail` and the count of the bits have
their own reason; in each of the others FSM before the move fixes PENDING, CRIT and the pins by the invariants, and the
move writes the ones that its next FSM state wants otherwise. -/
theorem RuleMove.keeps_registerInv (hm : RuleMove u t) (h : RegisterInv u) : RegisterInv t := by
  cases hm with
  | wait => exact h
  | giveUp code hf hc => exact registerInv_failPoll code u.frame u.crit h hf
  | frameBad f hf hi hb hc => exact registerInv_failPoll _ f false h (by rw [hf]; rfl)
  | nextBit b hf hi =>
    obtain ⟨hp, hc, hz, -, hoe, hdo, hpu⟩ := h
    have hidx : (u.bitIdx + 1).toNat < 40 := by bv_omega
    constructor <;> simp_all [inBitPhase]
  | respond | startPoll | driveHigh | release | sensorAnswers | preambleRises | enterBitPhase | bitRises | frameOk =>
    obtain ⟨hp, hc, hz, hi, hoe, hdo, hpu⟩ := h
    constructor <;> simp_all [inBitPhase]

/-- Settles O34: the invariants hold after a reset, and sampling, a refusal and every move of a rule keep them. -/
theorem everyStepKeepsTheRegisterInvariants : Obligations.EveryStepKeepsTheRegisterInvariants := by
  unfold Obligations.EveryStepKeepsTheRegisterInvariants
  intro s t hs h
  have hl := registerInv_latch (nextDraw s) hs
  obtain rfl | ⟨-, rfl⟩ | ⟨-, hm⟩ := step_move h
  · exact registerInv_refuseTime hl
  · exact registerInv_resetRegisters _
  · exact hm.keeps_registerInv hl

/-! ### FSM (10_state.md R22) -/

/-- Settles O37: a refused tick leaves FSM, and each move goes along an edge or leaves FSM; a poll is given up from a
state that reads the line. -/
theorem fsmMovesAlongTheNamedEdges : Obligations.FsmMovesAlongTheNamedEdges := by
  unfold Obligations.FsmMovesAlongTheNamedEdges
  intro s t h hr hne
  obtain rfl | hm := step_move_of_not_rst h hr
  · exact absurd rfl hne
  rw [← latch_fsm (nextDraw s) s] at hne ⊢
  generalize latch (nextDraw s) s = u at hm hne ⊢
  cases hm with
  | wait => exact absurd rfl hne
  | respond => exact absurd rfl hne
  | giveUp code hf hc => cases hu : u.fsm <;> simp_all [readsLine]
  | _ => simp [*]

/-! ### LAST_POLL_MS (10_state.md R30, R38 (e)) -/

/-- A move leaves `LAST_POLL_MS`, or it starts a poll, and then the interval since the last one is over. -/
theorem RuleMove.lastPollMs_cases (hm : RuleMove u t) :
    t.lastPollMs = u.lastPollMs ∨
    (u.fsm = .idle ∧ t.fsm = .startLow ∧ t.lastPollMs.toNat = u.inp.nowUs.toNat / 1000 ∧
      u.lastPollMs.toNat + u.cfg.minPollIntervalMs < t.lastPollMs.toNat) := by
  cases hm with
  | startPoll k hf hv hk hs =>
    have e : (Machine.startPoll k u).lastPollMs.toNat = u.inp.nowUs.toNat / 1000 := toNat_ofNat_nowMs u.inp.nowUs
    exact .inr ⟨hf, rfl, e, by rw [e]; exact (isStale_iff u).mp hs⟩
  | _ => left; simp

/-- Settles O39: outside a reset only a poll's start moves `LAST_POLL_MS`. -/
theorem lastPollIsWrittenOnlyAtAPollStart : Obligations.LastPollIsWrittenOnlyAtAPollStart := by
  unfold Obligations.LastPollIsWrittenOnlyAtAPollStart
  intro s t h hne
  obtain rfl | ⟨hr, rfl⟩ | ⟨-, hm⟩ := step_move h
  · exact absurd rfl hne
  · exact .inl hr
  · obtain ⟨-, hinp, -⟩ := hm.keeps_sampled
    obtain e | hstart := hm.lastPollMs_cases
    · exact absurd e hne
    · rw [hinp]
      exact .inr hstart

/-! ### The readings and VALID (10_state.md R28, R29, R38 (d)) -/

/-- A move leaves the readings and `VALID`, or it ends BIT_HIGH of the last bit with a frame whose checksum passes, and
writes them whole. -/
theorem RuleMove.readings_cases (hm : RuleMove u t) :
    (t.humInt = u.humInt ∧ t.humFrac = u.humFrac ∧ t.tempInt = u.tempInt ∧ t.tempFrac = u.tempFrac ∧
      t.valid = u.valid) ∨
    (u.fsm = .bitHigh ∧ 39 ≤ u.bitIdx.toNat ∧ t.fsm = .idle ∧ t.lastStatus = .ok ∧ t.valid = true ∧
      t.frame = frameOfBytes t.humInt t.humFrac t.tempInt t.tempFrac (frameByte t.frame 4) ∧
      (t.humInt.toNat + t.humFrac.toNat + t.tempInt.toNat + t.tempFrac.toNat) % 256 =
        (frameByte t.frame 4).toNat) := by
  cases hm with
  | frameOk f hf hi hb hc =>
    refine .inr ⟨hf, hi, by simp, by simp, by simp, ?_, ?_⟩
    · simpa using (frameOfBytes_frameByte f).symm
    · simpa using (checksumOk_iff f).mp hc
  | _ => left; simp

/-- Settles O40: outside a reset only a frame whose checksum passes moves a reading or `VALID`. -/
theorem readingsChangeOnlyOnAValidFrame : Obligations.ReadingsChangeOnlyOnAValidFrame := by
  unfold Obligations.ReadingsChangeOnlyOnAValidFrame
  intro s t h hne
  obtain rfl | ⟨hr, rfl⟩ | ⟨-, hm⟩ := step_move h
  · simp at hne
  · exact .inl hr
  · obtain hsame | hframe := hm.readings_cases
    · simp [hsame] at hne
    · exact .inr hframe

/-- Settles O42: a rule writes `VALID` only to set it, and `LAST_POLL_MS` only after the interval. -/
theorem betweenResetsValidStaysAndLastPollGrows : Obligations.BetweenResetsValidStaysAndLastPollGrows := by
  unfold Obligations.BetweenResetsValidStaysAndLastPollGrows
  intro s t h hr
  obtain rfl | hm := step_move_of_not_rst h hr
  · exact ⟨id, le_rfl⟩
  constructor
  · intro hv
    obtain ⟨-, -, -, -, e⟩ | ⟨-, -, -, -, e, -⟩ := hm.readings_cases
    · exact e.trans hv
    · exact e
  · obtain e | ⟨-, -, -, hlt⟩ := hm.lastPollMs_cases
    · exact (congrArg BitVec.toNat e).ge
    · exact (Nat.le_add_right _ _).trans hlt.le

/-! ### LAST_STATUS (10_state.md R31) -/

/-- A move leaves `LAST_STATUS` and does not go from a busy state to IDLE, or it does both, with a code other than
NONE. -/
theorem RuleMove.lastStatus_cases (hm : RuleMove u t) :
    (t.lastStatus = u.lastStatus ∧ (t.fsm = .idle → u.fsm = .idle)) ∨
    (u.fsm ≠ .idle ∧ t.fsm = .idle ∧ t.lastStatus ≠ .noPoll) := by
  cases hm with
  | frameOk f hf hi hb hc => right; simp [hf]
  | frameBad f hf hi hb hc => right; simp [hf]
  | giveUp code hf hc =>
    have hbusy : u.fsm ≠ .idle := by rintro e; simp [e, readsLine] at hf
    exact .inr ⟨hbusy, by simp, by simpa using hc⟩
  | _ => left; simp

/-- Settles O41: outside a reset `LAST_STATUS` is written by the ends of a poll only, each with a code of its own. -/
theorem lastStatusIsWrittenOnlyAtAPollEnd : Obligations.LastStatusIsWrittenOnlyAtAPollEnd := by
  unfold Obligations.LastStatusIsWrittenOnlyAtAPollEnd
  intro s t h hr
  obtain rfl | hm := step_move_of_not_rst h hr
  · exact ⟨fun hne => absurd rfl hne, fun hbusy hidle => absurd hidle hbusy⟩
  obtain ⟨e, hstay⟩ | ⟨hbusy, hidle, hcode⟩ := hm.lastStatus_cases
  · exact ⟨fun hne => absurd e hne, fun hbusy hidle => absurd (hstay hidle) hbusy⟩
  · exact ⟨fun _ => ⟨hbusy, hidle⟩, fun _ _ => hcode⟩

end Sys2Proof.Machine
end

section
/-! PROOFS. What earlier polls left in BIT_IDX, FRAME, T_MARK and DEADLINE is never observable (10_state.md R37,
93_implementation_defined.md I20): `SameButLeftovers` is a simulation. Each rule is run on two states that differ in
leftovers only; what it reads is the same in both, and what it does not read it carries along or overwrites. -/

namespace Sys2Proof.Machine

/-- `s` with the four sequencing registers at other values: the second state of a `SameButLeftovers` pair. -/
def withSequencing (b : BitVec 6) (f : Frame) (m dl : Time) (s : State) : State :=
  { s with bitIdx := b, frame := f, tMark := m, deadline := dl }

@[simp] theorem withSequencing_cfg (b : BitVec 6) (f : Frame) (m dl : Time) (s : State) :
    (withSequencing b f m dl s).cfg = s.cfg := rfl
@[simp] theorem withSequencing_fsm (b : BitVec 6) (f : Frame) (m dl : Time) (s : State) :
    (withSequencing b f m dl s).fsm = s.fsm := rfl
@[simp] theorem withSequencing_inp (b : BitVec 6) (f : Frame) (m dl : Time) (s : State) :
    (withSequencing b f m dl s).inp = s.inp := rfl
@[simp] theorem withSequencing_bitIdx (b : BitVec 6) (f : Frame) (m dl : Time) (s : State) :
    (withSequencing b f m dl s).bitIdx = b := rfl
@[simp] theorem withSequencing_tMark (b : BitVec 6) (f : Frame) (m dl : Time) (s : State) :
    (withSequencing b f m dl s).tMark = m := rfl
@[simp] theorem withSequencing_deadline (b : BitVec 6) (f : Frame) (m dl : Time) (s : State) :
    (withSequencing b f m dl s).deadline = dl := rfl

variable {b : BitVec 6} {f : Frame} {m dl : Time} {s t s' : State}

/-- A pair that differs in leftovers only, with the second state written out. -/
theorem SameButLeftovers.eq_withSequencing (h : SameButLeftovers s t) :
    t = withSequencing t.bitIdx t.frame t.tMark t.deadline s := h.same

/-! ### What the rules do to sequencing registers they do not read -/

theorem complete_withSequencing (b : BitVec 6) (f : Frame) (m dl : Time) (s : State) :
    complete (withSequencing b f m dl s) = withSequencing b f m dl (complete s) := by
  cases h : s.pending with
  | none => simp only [complete, respondPending, withSequencing, h]
  | some k => cases k <;> simp only [complete, respondPending, withSequencing, h, respond, cachedWord]

/-- IDLE reads none of the four. -/
theorem sameButLeftovers_complete (b : BitVec 6) (f : Frame) (m dl : Time) (s : State) :
    SameButLeftovers (complete s) (complete (withSequencing b f m dl s)) where
  same := by rw [complete_withSequencing]; rfl
  in_bit_phase := by simp [inBitPhase]
  mark_read := by simp
  deadline_read := by simp

theorem sameButLeftovers_failPoll (code : Status) (b : BitVec 6) (f : Frame) (m dl : Time) (s : State) :
    SameButLeftovers (failPoll code s) (failPoll code (withSequencing b f m dl s)) :=
  sameButLeftovers_complete b f m dl { s with lastStatus := code, crit := false, pinOe := false, pinPu := true }

theorem sameButLeftovers_checkFrame (g : Frame) (b : BitVec 6) (f : Frame) (m dl : Time) (s : State) :
    SameButLeftovers (checkFrame g s) (checkFrame g (withSequencing b f m dl s)) := by
  unfold checkFrame
  split
  · exact sameButLeftovers_complete b f m dl { s with
      humInt := frameByte g 0, humFrac := frameByte g 1, tempInt := frameByte g 2, tempFrac := frameByte g 3,
      valid := true, lastStatus := .ok }
  · exact sameButLeftovers_failPoll .checksumMismatch b f m dl s

/-- An accepted bit reads BIT_IDX and FRAME, and writes DEADLINE where the next cell's LOW reads it. -/
theorem sameButLeftovers_acceptBit (x : Bool) (m dl : Time) (s : State) :
    SameButLeftovers (acceptBit x s) (acceptBit x (withSequencing s.bitIdx s.frame m dl s)) := by
  by_cases hi : s.bitIdx.toNat < Config.nBits - 1
  · simp only [acceptBit, advanceBit, withSequencing, hi, if_true]
    exact ⟨rfl, fun _ => ⟨rfl, rfl⟩, by simp, fun _ => rfl⟩
  · simp only [acceptBit, advanceBit, withSequencing, hi, if_false]
    exact sameButLeftovers_checkFrame _ s.bitIdx (shiftIn s.frame x) m dl
      { s with frame := shiftIn s.frame x, crit := false }

theorem sameButLeftovers_zeroResult (m dl : Time) (s : State) :
    SameButLeftovers (zeroResult s) (zeroResult (withSequencing s.bitIdx s.frame m dl s)) := by
  by_cases hp : s.bitIdx.toNat = Config.nBits - 1 ∧ s.cfg.lastBitPolicy = .one
  · simp only [zeroResult, withSequencing_bitIdx, withSequencing_cfg, hp, and_self, if_true]
    exact sameButLeftovers_acceptBit true m dl s
  · simp only [zeroResult, withSequencing_bitIdx, withSequencing_cfg, hp, if_false]
    exact sameButLeftovers_failPoll .bitTimeout _ _ m dl s

/-! ### The rule of each busy state

Each takes the pair with the registers that its state reads already equal. -/

theorem sameButLeftovers_startLowTick (h : SameButLeftovers s (withSequencing b f s.tMark dl s)) :
    SameButLeftovers (startLowTick s) (startLowTick (withSequencing b f s.tMark dl s)) := by
  cases he : delayElapsed s.cfg.tStartUs s.inp.nowUs s.tMark <;>
    simp only [startLowTick, withSequencing_cfg, withSequencing_inp, withSequencing_tMark, he, Bool.false_eq_true,
      if_false, if_true]
  · exact h
  · exact ⟨rfl, by simp [inBitPhase], fun _ => rfl, by simp⟩

theorem sameButLeftovers_startHighTick (h : SameButLeftovers s (withSequencing b f s.tMark dl s)) :
    SameButLeftovers (startHighTick s) (startHighTick (withSequencing b f s.tMark dl s)) := by
  cases he : delayElapsed s.cfg.tReleaseUs s.inp.nowUs s.tMark <;>
    simp only [startHighTick, withSequencing_cfg, withSequencing_inp, withSequencing_tMark, he, Bool.false_eq_true,
      if_false, if_true]
  · exact h
  · exact ⟨rfl, by simp [inBitPhase], by simp, by simp⟩

theorem sameButLeftovers_respCheckTick (b : BitVec 6) (f : Frame) (m dl : Time) (s : State) :
    SameButLeftovers (respCheckTick s) (respCheckTick (withSequencing b f m dl s)) := by
  cases hd : s.inp.di <;>
    simp only [respCheckTick, withSequencing_cfg, withSequencing_inp, hd, Bool.false_eq_true, if_false, if_true]
  · exact ⟨rfl, by simp [inBitPhase], by simp, fun _ => rfl⟩
  · exact sameButLeftovers_failPoll .noResponse b f m dl s

theorem sameButLeftovers_preLowTick (h : SameButLeftovers s (withSequencing b f m s.deadline s)) :
    SameButLeftovers (preLowTick s) (preLowTick (withSequencing b f m s.deadline s)) := by
  simp only [preLowTick, withSequencing_inp, withSequencing_deadline]
  cases waitForLevel true s.inp.di s.inp.nowUs s.deadline
  case success => exact ⟨rfl, by simp [inBitPhase], by simp, fun _ => rfl⟩
  case timeout => exact sameButLeftovers_failPoll .handshakeTimeout b f m s.deadline s
  case stay => exact h

theorem sameButLeftovers_preHighTick (h : SameButLeftovers s (withSequencing b f m s.deadline s)) :
    SameButLeftovers (preHighTick s) (preHighTick (withSequencing b f m s.deadline s)) := by
  simp only [preHighTick, withSequencing_cfg, withSequencing_inp, withSequencing_deadline]
  cases waitForLevel false s.inp.di s.inp.nowUs s.deadline
  case success => exact ⟨rfl, fun _ => ⟨rfl, rfl⟩, by simp, fun _ => rfl⟩
  case timeout => exact sameButLeftovers_failPoll .handshakeTimeout b f m s.deadline s
  case stay => exact h

theorem sameButLeftovers_bitLowTick (h : SameButLeftovers s (withSequencing s.bitIdx s.frame m s.deadline s)) :
    SameButLeftovers (bitLowTick s) (bitLowTick (withSequencing s.bitIdx s.frame m s.deadline s)) := by
  simp only [bitLowTick, withSequencing_inp, withSequencing_deadline]
  cases waitForLevel true s.inp.di s.inp.nowUs s.deadline
  case success => exact ⟨rfl, fun _ => ⟨rfl, rfl⟩, fun _ => rfl, by simp⟩
  case timeout => exact sameButLeftovers_failPoll .bitTimeout _ _ m s.deadline s
  case stay => exact h

theorem sameButLeftovers_bitHighTick (h : SameButLeftovers s (withSequencing s.bitIdx s.frame s.tMark dl s)) :
    SameButLeftovers (bitHighTick s) (bitHighTick (withSequencing s.bitIdx s.frame s.tMark dl s)) := by
  simp only [bitHighTick, withSequencing_cfg, withSequencing_inp, withSequencing_tMark]
  rcases measurePulseWidth s.cfg.tBitTimeoutUs s.inp.di s.inp.nowUs s.tMark with _ | _ | r
  · exact h
  · exact sameButLeftovers_zeroResult s.tMark dl s
  · exact sameButLeftovers_acceptBit _ s.tMark dl s

/-! ### The commands -/

/-- A response writes outputs only. -/
theorem SameButLeftovers.respond (data : RspWord) (err : Bool) (h : SameButLeftovers s (withSequencing b f m dl s)) :
    SameButLeftovers (respond data err s) (respond data err (withSequencing b f m dl s)) :=
  ⟨rfl, h.in_bit_phase, h.mark_read, h.deadline_read⟩

/-- A READ writes T_MARK where START_LOW reads it, or answers from the cache. -/
theorem SameButLeftovers.readCommand (k : ReadKind) (h : SameButLeftovers s (withSequencing b f m dl s)) :
    SameButLeftovers (readCommand k s) (readCommand k (withSequencing b f m dl s)) := by
  have hs : isStale (withSequencing b f m dl s) = isStale s := rfl
  have hw : cachedWord k (withSequencing b f m dl s) = cachedWord k s := by cases k <;> rfl
  simp only [Machine.readCommand, hs, hw]
  split
  · exact ⟨rfl, by simp [inBitPhase], fun _ => rfl, by simp⟩
  · exact h.respond (cachedWord k s) false

theorem SameButLeftovers.exec (i : Instr) (h : SameButLeftovers s (withSequencing b f m dl s))
    (hs : exec i s = .next s') :
    ∃ t', exec i (withSequencing b f m dl s) = .next t' ∧ SameButLeftovers s' t' := by
  cases i <;> cases hs
  case readTemperature => exact ⟨_, rfl, h.readCommand .temp⟩
  case readHumidity => exact ⟨_, rfl, h.readCommand .hum⟩
  all_goals exact ⟨_, rfl, h.respond _ _⟩

/-! ### The step and the run -/

/-- The rule of a state keeps the simulation: each state reads only what the simulation holds equal in it. -/
theorem SameButLeftovers.stateRule (h : SameButLeftovers s t) (hs : stateRule s = .next s') :
    ∃ t', stateRule t = .next t' ∧ SameButLeftovers s' t' := by
  have hbit := h.in_bit_phase
  have hmark := h.mark_read
  have hdl := h.deadline_read
  have ht := h.eq_withSequencing
  generalize t.bitIdx = b, t.frame = f, t.tMark = m, t.deadline = dl at hbit hmark hdl ht
  subst ht
  cases hf : s.fsm <;>
    simp only [Machine.stateRule, withSequencing_fsm, hf, Host.Outcome.next.injEq, exists_eq_left'] at hs ⊢
  case idle =>
    cases hv : s.inp.reqValid <;>
      simp only [idleTick, withSequencing_inp, hv, Bool.false_eq_true, if_false, if_true] at hs ⊢
    · cases hs
      exact ⟨_, rfl, h⟩
    · exact h.exec (decode s.inp.reqCmd) hs
  all_goals subst hs
  case startLow =>
    obtain rfl := hmark (by simp [hf])
    exact sameButLeftovers_startLowTick h
  case startHigh =>
    obtain rfl := hmark (by simp [hf])
    exact sameButLeftovers_startHighTick h
  case respCheck => exact sameButLeftovers_respCheckTick b f m dl s
  case preLow =>
    obtain rfl := hdl (by simp [hf])
    exact sameButLeftovers_preLowTick h
  case preHigh =>
    obtain rfl := hdl (by simp [hf])
    exact sameButLeftovers_preHighTick h
  case bitLow =>
    obtain ⟨rfl, rfl⟩ := hbit (by simp [hf, inBitPhase])
    obtain rfl := hdl (by simp [hf])
    exact sameButLeftovers_bitLowTick h
  case bitHigh =>
    obtain ⟨rfl, rfl⟩ := hbit (by simp [hf, inBitPhase])
    obtain rfl := hmark (by simp [hf])
    exact sameButLeftovers_bitHighTick h

/-- Sampling the ports reads and writes none of the four. -/
theorem SameButLeftovers.latch (d : TickIn) (h : SameButLeftovers s t) : SameButLeftovers (latch d s) (latch d t) where
  same := by rw [h.eq_withSequencing]; rfl
  in_bit_phase := h.in_bit_phase
  mark_read := h.mark_read
  deadline_read := h.deadline_read

/-- Nor does scheduling the draws of a run. -/
theorem SameButLeftovers.withDraws (ds : List TickIn) (h : SameButLeftovers s t) :
    SameButLeftovers { s with draws := ds } { t with draws := ds } where
  same := by rw [h.eq_withSequencing]; rfl
  in_bit_phase := h.in_bit_phase
  mark_read := h.mark_read
  deadline_read := h.deadline_read

theorem SameButLeftovers.refuseTime (h : SameButLeftovers s t) : SameButLeftovers (refuseTime s) (refuseTime t) where
  same := by rw [h.eq_withSequencing]; rfl
  in_bit_phase := h.in_bit_phase
  mark_read := h.mark_read
  deadline_read := h.deadline_read

/-- A reset leaves no difference at all. -/
theorem SameButLeftovers.resetRegisters (h : SameButLeftovers s t) :
    SameButLeftovers (resetRegisters s) (resetRegisters t) where
  same := by rw [h.eq_withSequencing]; rfl
  in_bit_phase _ := ⟨rfl, rfl⟩
  mark_read _ := rfl
  deadline_read _ := rfl

/-- A tick on the same draw keeps the simulation. -/
theorem SameButLeftovers.tickWith (d : TickIn) (h : SameButLeftovers s t) (hs : tickWith d s = .next s') :
    ∃ t', tickWith d t = .next t' ∧ SameButLeftovers s' t' := by
  have hl := h.latch d
  have hadm : timeAdmissible t.cfg t.inp.nowUs d.nowUs = timeAdmissible s.cfg s.inp.nowUs d.nowUs := by
    rw [h.eq_withSequencing, withSequencing_cfg, withSequencing_inp]
  cases ha : timeAdmissible s.cfg s.inp.nowUs d.nowUs
  · rw [tickWith_of_refused d s ha] at hs
    cases hs
    exact ⟨_, tickWith_of_refused d t (hadm.trans ha), hl.refuseTime⟩
  · cases hr : d.rst
    · rw [tickWith_of_rule d s ha hr] at hs
      rw [tickWith_of_rule d t (hadm.trans ha) hr]
      exact hl.stateRule hs
    · rw [tickWith_of_reset d s ha hr] at hs
      cases hs
      exact ⟨_, tickWith_of_reset d t (hadm.trans ha) hr, hl.resetRegisters⟩

/-- A run over the same draws keeps the simulation. -/
theorem SameButLeftovers.runDraws (ds : List TickIn) (h : SameButLeftovers s t) (hs : runDraws ds s = .next s') :
    ∃ t', runDraws ds t = .next t' ∧ SameButLeftovers s' t' := by
  induction ds generalizing s t with
  | nil =>
    rw [runDraws_nil] at hs
    cases hs
    exact ⟨_, runDraws_nil t, h.withDraws []⟩
  | cons d ds ih =>
    obtain ⟨u, hu, hs⟩ := (runDraws_cons_iff d ds s s').mp hs
    obtain ⟨v, hv, huv⟩ := (h.withDraws (d :: ds)).tickWith d hu
    obtain ⟨t', ht, hst⟩ := ih huv hs
    exact ⟨t', (runDraws_cons_iff d ds t t').mpr ⟨v, hv, ht⟩, hst⟩

/-- None of the four is an output. -/
theorem SameButLeftovers.outputs_eq (h : SameButLeftovers s t) : outputs t = outputs s := by
  rw [h.eq_withSequencing]
  rfl

/-- Settles O58: the simulation holds along the run, and states that it relates show the same outputs. -/
theorem leftoverSequencingIsUnobservable : Obligations.LeftoverSequencingIsUnobservable := by
  unfold Obligations.LeftoverSequencingIsUnobservable
  intro ds s t s' h hs
  obtain ⟨t', ht, hst⟩ := h.runDraws ds hs
  exact ⟨t', ht, hst, hst.outputs_eq⟩

end Sys2Proof.Machine
end

section
/-! PROOFS. The command words (30_encoding.md R70 to R73): decoder and encoder are inverse, and the decoder of table
words refuses exactly the numbers that the three wires do not hold. -/

namespace Sys2Proof

theorem decode_encode (i : Instr) : decode (encode i) = i := by
  cases i <;> rfl

theorem encode_decode (w : CmdWord) : encode (decode w) = w := by
  revert w
  decide

/-- Each command has one word (30_encoding.md R71), so a test of the decoded command is a test of the word. -/
theorem decode_eq_iff (w : CmdWord) (i : Instr) : decode w = i ↔ w = encode i :=
  ⟨fun h => by rw [← h, encode_decode], fun h => by rw [h, decode_encode]⟩

/-- Settles O2. -/
theorem commandDecodeEncodeAgree : Obligations.CommandDecodeEncodeAgree := by
  unfold Obligations.CommandDecodeEncodeAgree
  exact ⟨fun i _ => decode_encode i, encode_decode⟩

/-- A byte string is decoded by its first byte, if that byte is a command word. -/
theorem decodeBytes_of_lt (b : Byte) (rest : List Byte) (h : b.toNat < 8) :
    decodeBytes (b :: rest) = .ok (decode (BitVec.ofNat 3 b.toNat), rest) := by
  simp [decodeBytes, decodeNumber, commandWordWf, h]

theorem decodeBytes_of_ge (b : Byte) (rest : List Byte) (h : 8 ≤ b.toNat) :
    decodeBytes (b :: rest) = .error (.widerThanPort b.toNat) := by
  simp [decodeBytes, decodeNumber, commandWordWf, Nat.not_lt.mpr h]

/-- An 8-bit number is one byte. -/
theorem bytesOfNumber_one (w : Nat) : bytesOfNumber 1 w = [BitVec.ofNat 8 w] := by
  simp [bytesOfNumber]

theorem decodeTableWord_of_lt (w : Nat) (h : w < 8) :
    decodeTableWord 8 w = some (decode (BitVec.ofNat 3 w)) := by
  have hw : (BitVec.ofNat 8 w).toNat = w := by rw [BitVec.toNat_ofNat]; omega
  rw [decodeTableWord, if_pos (by omega), bytesOfNumber_one, decodeBytes_of_lt _ _ (by omega), hw]

/-- A number that the three wires do not hold is no command, whether it fits a byte or not (log entry 17). -/
theorem decodeTableWord_of_ge (w : Nat) (h : 8 ≤ w) : decodeTableWord 8 w = none := by
  unfold decodeTableWord
  split
  · next hlt =>
    have hw : (BitVec.ofNat 8 w).toNat = w := by rw [BitVec.toNat_ofNat]; omega
    rw [bytesOfNumber_one, decodeBytes_of_ge _ _ (by omega)]
  · rfl

/-- The table word of a command is decoded to it. -/
theorem decodeTableWord_encode (i : Instr) : decodeTableWord 8 (encode i).toNat = some i := by
  rw [decodeTableWord_of_lt _ (encode i).isLt, BitVec.ofNat_toNat, BitVec.setWidth_eq, decode_encode]

/-- Settles O1: the eight numbers are the words of the eight commands. -/
theorem commandWordsDecode : Obligations.CommandWordsDecode := by
  unfold Obligations.CommandWordsDecode
  exact ⟨decodeTableWord_encode .rsvd0, decodeTableWord_encode .readTemperature,
    decodeTableWord_encode .readHumidity, decodeTableWord_encode .hasValidData,
    decodeTableWord_encode .hasStaleData, decodeTableWord_encode .readStatus,
    decodeTableWord_encode .rsvd6, decodeTableWord_encode .rsvd7, decodeTableWord_of_ge⟩

end Sys2Proof
end

section
/-! PROOFS. The forty shifts of a frame (30_encoding.md R79 to R81, 41_frame_decoder.md R132): where the bits of a byte
list stand in arrival order, where a run of shifts leaves its bits, and so where it leaves the bytes. -/

namespace Sys2Proof.Machine

theorem byteWireBits_getElem? (b : Byte) (j : Nat) (h : j < 8) :
    (byteWireBits b)[j]? = some (b.getLsbD (7 - j)) := by
  simp [byteWireBits, h]

theorem frameWireBits_cons (b : Byte) (bs : List Byte) :
    frameWireBits (b :: bs) = byteWireBits b ++ frameWireBits bs := List.flatMap_cons

/-- Wire bit `i` of any number of bytes: byte 0 first, each byte most significant bit first. -/
theorem frameWireBits_getElem? (bs : List Byte) (i : Nat) (h : i < 8 * bs.length) :
    (frameWireBits bs)[i]? = some ((bs.getD (i / 8) 0).getLsbD (7 - i % 8)) := by
  induction bs generalizing i with
  | nil => simp at h
  | cons b bs ih =>
    rw [List.length_cons] at h
    rw [frameWireBits_cons]
    by_cases hi : i < 8
    · rw [List.getElem?_append_left (by rw [length_byteWireBits]; exact hi), byteWireBits_getElem? b i hi,
        Nat.div_eq_of_lt hi, Nat.mod_eq_of_lt hi, List.getD_cons_zero]
    · obtain ⟨j, rfl⟩ : ∃ j, i = j + 8 := ⟨i - 8, by omega⟩
      rw [List.getElem?_append_right (by rw [length_byteWireBits]; omega), length_byteWireBits, Nat.add_sub_cancel,
        ih j (by omega), Nat.add_div_right j (by decide), Nat.add_mod_right, List.getD_cons_succ]

theorem length_frameWireBits (bs : List Byte) : (frameWireBits bs).length = 8 * bs.length := by
  induction bs with
  | nil => rfl
  | cons b bs ih =>
    rw [frameWireBits_cons, List.length_append, length_byteWireBits, ih, List.length_cons]
    omega

/-- After any number of shifts the last bit stands at the bottom of the frame, the one before it above it, and so on. -/
theorem foldl_shiftIn_getLsbD (bits : List Bool) (f : Frame) (i : Nat) (hi : i < bits.length) (h40 : i < 40) :
    bits.reverse[i]? = some ((bits.foldl shiftIn f).getLsbD i) := by
  induction bits using List.reverseRecOn generalizing i with
  | nil => simp at hi
  | append_singleton bits b ih =>
    rw [List.foldl_append, List.foldl_cons, List.foldl_nil, shiftIn_getLsbD, List.reverse_append,
      List.reverse_singleton, List.singleton_append]
    cases i with
    | zero => rfl
    | succ i =>
      rw [List.length_append, List.length_singleton] at hi
      rw [List.getElem?_cons_succ, ih i (by omega) (by omega)]
      simp [h40]

/-- R81: after the forty shifts of five bytes, frame bit `i` is at `FRAME[39 - i]`, whatever FRAME held before. -/
theorem frameWireBits_getElem?_eq_frame_bit (bs : List Byte) (hbs : bs.length = 5) (f : Frame) (i : Nat)
    (hi : i < 40) :
    (frameWireBits bs)[i]? = some (((frameWireBits bs).foldl shiftIn f).getLsbD (39 - i)) := by
  have hl : (frameWireBits bs).length = 40 := by rw [length_frameWireBits, hbs]
  rw [← foldl_shiftIn_getLsbD _ f _ (by omega) (by omega), List.getElem?_reverse (by omega), hl]
  congr 1
  omega

theorem frameByte_getLsbD (f : Frame) (k j : Nat) (hj : j < 8) :
    (frameByte f k).getLsbD j = f.getLsbD (8 * (4 - k) + j) := by
  simp [frameByte, hj]

/-- After the forty shifts of five bytes, byte view `k` of FRAME is byte `k`. -/
theorem frameByte_foldl_shiftIn (bs : List Byte) (hbs : bs.length = 5) (f : Frame) (k : Nat) (hk : k < 5) :
    frameByte ((frameWireBits bs).foldl shiftIn f) k = bs.getD k 0 := by
  refine BitVec.eq_of_getLsbD_eq fun j hj => ?_
  have hwire := frameWireBits_getElem? bs (8 * k + (7 - j)) (by omega)
  have hbit := frameWireBits_getElem?_eq_frame_bit bs hbs f (8 * k + (7 - j)) (by omega)
  rw [hwire, Option.some.injEq, show (8 * k + (7 - j)) / 8 = k by omega,
    show 7 - (8 * k + (7 - j)) % 8 = j by omega] at hbit
  rw [frameByte_getLsbD _ _ _ hj, hbit]
  congr 1
  omega

/-- Settles O3: bits and bytes in place after the shifts of any list of five bytes, and so of these five. -/
theorem fortyShiftsRebuildTheBytes : Obligations.FortyShiftsRebuildTheBytes := by
  unfold Obligations.FortyShiftsRebuildTheBytes
  intro b0 b1 b2 b3 b4 f
  have byte := frameByte_foldl_shiftIn [b0, b1, b2, b3, b4] rfl f
  exact ⟨frameWireBits_getElem? [b0, b1, b2, b3, b4], frameWireBits_getElem?_eq_frame_bit _ rfl f,
    byte 0 (by decide), byte 1 (by decide), byte 2 (by decide), byte 3 (by decide), byte 4 (by decide)⟩

/-! ### The value of a reading (30_encoding.md R82) -/

/-- The two bytes of a response word are those it was made of. -/
theorem responseValue_readingWord (int frac : Byte) :
    responseValue (readingWord int frac) = (int.toNat : Rat) + (frac.toNat : Rat) / 10 := by
  rw [responseValue, readingWord_int, readingWord_frac, readingValue]

/-- Settles O4: the bounds are those of two bytes, 0 and 255 + 255/10. -/
theorem readingValueIsExact : Obligations.ReadingValueIsExact := by
  unfold Obligations.ReadingValueIsExact
  intro I F
  rw [responseValue_readingWord]
  have hI : (I.toNat : Rat) ≤ 255 := by exact_mod_cast Nat.le_of_lt_succ I.isLt
  have hF : (F.toNat : Rat) ≤ 255 := by exact_mod_cast Nat.le_of_lt_succ F.isLt
  exact ⟨rfl, by positivity, by linarith⟩

end Sys2Proof.Machine
end

section
/-! PROOFS. When `rsp_err` is 1 (30_encoding.md R77, 42_host_commands.md R169): every tick starts with it at 0, the ends
of a poll leave it so, and of the commands only a reserved code sets it. -/

namespace Sys2Proof.Machine

variable {u t : State}

/-- The answer of `complete` is never an error (41_frame_decoder.md R136). -/
theorem respondPending_out_rspErr (s : State) (h : s.out.rspErr = false) : (respondPending s).out.rspErr = false := by
  obtain ⟨k, -, e⟩ | ⟨-, e⟩ := respondPending_out_cases s <;> rw [e]
  exact h

/-- The rule of a busy state answers no error, whichever way it ends. -/
theorem RuleMove.no_error_of_busy (hm : RuleMove u t) (hbusy : u.fsm ≠ .idle) (ho : u.out.rspErr = false) :
    t.out.rspErr = false := by
  cases hm with
  | respond data err hf hv => exact absurd hf hbusy
  | frameOk f hf hi hb hc => exact respondPending_out_rspErr _ ho
  | frameBad f hf hi hb hc => exact respondPending_out_rspErr _ ho
  | giveUp code hf hc => exact respondPending_out_rspErr _ ho
  | _ => exact ho

/-- `u` is about to run a reserved code: IDLE, with a request that carries one. -/
def AcceptsReserved (u : State) : Prop :=
  u.fsm = .idle ∧ u.inp.reqValid = true ∧
    (decode u.inp.reqCmd = .rsvd0 ∨ decode u.inp.reqCmd = .rsvd6 ∨ decode u.inp.reqCmd = .rsvd7)

/-- Where the rule of a state accepts a reserved code, the error response is its whole effect; everywhere else it
answers no error. -/
theorem stateRule_error_cases (ho : u.out.rspErr = false) (h : stateRule u = .next t) :
    (AcceptsReserved u ∧ t = respond errorWord true u) ∨ (¬ AcceptsReserved u ∧ t.out.rspErr = false) := by
  by_cases hf : u.fsm = .idle
  · have h : idleTick u = .next t := by rw [← h, stateRule, hf]
    unfold idleTick at h
    split at h
    · next hv =>
      obtain ⟨k, hk, -, rfl⟩ | ⟨data, hnot, rfl⟩ | ⟨hres, rfl⟩ := exec_cases _ u t h
      · refine .inr ⟨fun ⟨_, _, hres⟩ => ?_, ho⟩
        obtain ⟨e, -⟩ | ⟨e, -⟩ := hk <;> simp [e] at hres
      · exact .inr ⟨fun ⟨_, _, hres⟩ => hnot hres, rfl⟩
      · exact .inl ⟨⟨hf, hv, hres⟩, rfl⟩
    · next hv =>
      cases h
      exact .inr ⟨fun ⟨_, hv', _⟩ => hv hv', ho⟩
  · exact .inr ⟨fun ⟨hidle, _⟩ => hf hidle, (stateRule_move h).no_error_of_busy hf ho⟩

/-- A sampled request is reserved exactly if its word is one of the three codes (30_encoding.md R72). -/
theorem acceptsReserved_sampled_iff (d : TickIn) (s : State) :
    AcceptsReserved (sampled d s) ↔
      s.fsm = .idle ∧ d.reqValid = true ∧ (d.reqCmd = 0b000#3 ∨ d.reqCmd = 0b110#3 ∨ d.reqCmd = 0b111#3) := by
  simp only [AcceptsReserved, sampled_fsm, sampled_inp, decode_eq_iff, encode]

/-- A tick that is not ordinary, refused for its time or a reset, answers no error. -/
theorem step_no_error_of_not_ordinary (d : TickIn) (s : State) (hd : ¬ OrdinaryTick d s)
    (h : step (present d s) = .next t) : t.out.rspErr = false := by
  obtain ⟨-, rfl⟩ | ⟨-, -, rfl⟩ | ⟨ha, hr, -⟩ := step_cases _ t h
  · rfl
  · rfl
  · obtain ⟨hmono, hwrap⟩ := (timeAdmissible_iff _ _ _).mp ha
    exact absurd ⟨hr, hmono, hwrap⟩ hd

/-- Settles O44: an ordinary tick runs the rule of its state, and no other tick answers an error. -/
theorem errorOnlyForAnAcceptedReservedCode : Obligations.ErrorOnlyForAnAcceptedReservedCode := by
  unfold Obligations.ErrorOnlyForAnAcceptedReservedCode
  intro d s t h
  by_cases hd : OrdinaryTick d s
  · rw [← acceptsReserved_sampled_iff]
    rw [step_present_of_ordinary d s hd] at h
    obtain ⟨hacc, rfl⟩ | ⟨hnot, he⟩ := stateRule_error_cases rfl h
    · exact ⟨⟨fun _ => ⟨hd, hacc⟩, fun _ => rfl⟩, fun _ => ⟨rfl, rfl⟩⟩
    · simp [he, hnot]
  · have he := step_no_error_of_not_ordinary d s hd h
    simp [he, hd]

end Sys2Proof.Machine
end

section
/-! PROOFS. The rule of each busy FSM state on an ordinary tick (41_frame_decoder.md R123 to R129): `step` runs the
state's rule on the sampled state, and the rule's case analysis says which branch its guard takes. -/

namespace Sys2Proof.Machine

variable {s : State}

/-! ### The rule that a state runs, one equation per state -/

theorem stateRule_of_startLow (hf : s.fsm = .startLow) : stateRule s = .next (startLowTick s) := by
  rw [stateRule, hf]

theorem stateRule_of_startHigh (hf : s.fsm = .startHigh) : stateRule s = .next (startHighTick s) := by
  rw [stateRule, hf]

theorem stateRule_of_respCheck (hf : s.fsm = .respCheck) : stateRule s = .next (respCheckTick s) := by
  rw [stateRule, hf]

theorem stateRule_of_preLow (hf : s.fsm = .preLow) : stateRule s = .next (preLowTick s) := by
  rw [stateRule, hf]

theorem stateRule_of_preHigh (hf : s.fsm = .preHigh) : stateRule s = .next (preHighTick s) := by
  rw [stateRule, hf]

theorem stateRule_of_bitLow (hf : s.fsm = .bitLow) : stateRule s = .next (bitLowTick s) := by
  rw [stateRule, hf]

theorem stateRule_of_bitHigh (hf : s.fsm = .bitHigh) : stateRule s = .next (bitHighTick s) := by
  rw [stateRule, hf]

/-! ### The busy states -/

/-- Settles O20: the delay is over or not. -/
theorem startLowHoldsThenDrivesHigh : Obligations.StartLowHoldsThenDrivesHigh := by
  unfold Obligations.StartLowHoldsThenDrivesHigh
  intro d s hf hd
  rw [step_present_of_ordinary d s hd, stateRule_of_startLow (s := sampled d s) hf]
  refine congrArg Host.Outcome.next ?_
  obtain ⟨h, e⟩ | ⟨h, e⟩ := startLowTick_cases (sampled d s)
  · exact e.trans (if_pos h).symm
  · exact e.trans (if_neg (Nat.not_le.mpr h)).symm

/-- Settles O21: the delay is over or not. -/
theorem startHighHoldsThenReleases : Obligations.StartHighHoldsThenReleases := by
  unfold Obligations.StartHighHoldsThenReleases
  intro d s hf hd
  rw [step_present_of_ordinary d s hd, stateRule_of_startHigh (s := sampled d s) hf]
  refine congrArg Host.Outcome.next ?_
  obtain ⟨h, e⟩ | ⟨h, e⟩ := startHighTick_cases (sampled d s)
  · exact e.trans (if_pos h).symm
  · exact e.trans (if_neg (Nat.not_le.mpr h)).symm

/-- Settles O22: the one sample is HIGH or LOW. -/
theorem respCheckTakesOneSample : Obligations.RespCheckTakesOneSample := by
  unfold Obligations.RespCheckTakesOneSample
  intro d s hf hd
  rw [step_present_of_ordinary d s hd, stateRule_of_respCheck (s := sampled d s) hf]
  refine congrArg Host.Outcome.next ?_
  obtain ⟨h, e⟩ | ⟨h, e⟩ := respCheckTick_cases (sampled d s)
  · exact e.trans (if_pos h).symm
  · exact e.trans (if_neg (Bool.eq_false_iff.mp h)).symm

/-- Settles O23: the line is HIGH, or the LOW tick is past the deadline or not. -/
theorem preLowWaitsForHigh : Obligations.PreLowWaitsForHigh := by
  unfold Obligations.PreLowWaitsForHigh
  intro d s hf hd
  rw [step_present_of_ordinary d s hd, stateRule_of_preLow (s := sampled d s) hf]
  refine congrArg Host.Outcome.next ?_
  obtain ⟨h, e⟩ | ⟨h, hlate, e⟩ | ⟨h, hin, e⟩ := preLowTick_cases (sampled d s)
  · exact e.trans (if_pos h).symm
  · exact e.trans ((if_neg h).trans (if_pos hlate)).symm
  · exact e.trans ((if_neg h).trans (if_neg (Nat.not_lt.mpr hin))).symm

/-- Settles O24: the line is LOW, or the HIGH tick is past the deadline or not. -/
theorem preHighWaitsForLowAndEntersTheBits : Obligations.PreHighWaitsForLowAndEntersTheBits := by
  unfold Obligations.PreHighWaitsForLowAndEntersTheBits
  intro d s hf hd
  rw [step_present_of_ordinary d s hd, stateRule_of_preHigh (s := sampled d s) hf]
  refine congrArg Host.Outcome.next ?_
  obtain ⟨h, e⟩ | ⟨h, hlate, e⟩ | ⟨h, hin, e⟩ := preHighTick_cases (sampled d s)
  · exact e.trans (if_pos h).symm
  · exact e.trans ((if_neg h).trans (if_pos hlate)).symm
  · exact e.trans ((if_neg h).trans (if_neg (Nat.not_lt.mpr hin))).symm

/-- Settles O25: the line is HIGH, or the LOW tick is past the deadline or not; neither the bit nor the policy is read. -/
theorem bitLowWaitsForTheRise : Obligations.BitLowWaitsForTheRise := by
  unfold Obligations.BitLowWaitsForTheRise
  intro d s hf hd
  rw [step_present_of_ordinary d s hd, stateRule_of_bitLow (s := sampled d s) hf]
  refine congrArg Host.Outcome.next ?_
  obtain ⟨h, e⟩ | ⟨h, hlate, e⟩ | ⟨h, hin, e⟩ := bitLowTick_cases (sampled d s)
  · exact e.trans (if_pos h).symm
  · exact e.trans ((if_neg h).trans (if_pos hlate)).symm
  · exact e.trans ((if_neg h).trans (if_neg (Nat.not_lt.mpr hin))).symm

/-- Settles O26: the pulse goes on, it measured nothing, or it measured a width. -/
theorem bitHighMeasuresThePulse : Obligations.BitHighMeasuresThePulse := by
  unfold Obligations.BitHighMeasuresThePulse
  intro d s hf hd w
  rw [step_present_of_ordinary d s hd, stateRule_of_bitHigh (s := sampled d s) hf]
  refine congrArg Host.Outcome.next ?_
  obtain ⟨hdi, hw, e⟩ | ⟨hzero, e⟩ | ⟨hdi, hpos, hle, e⟩ := bitHighTick_cases (sampled d s) <;>
    simp only [sampled_inp, sampled_tMark, sampled_cfg] at * <;> rw [e]
  · rw [if_pos ⟨hdi, hw⟩]
  · have hstop : ¬ (d.di = true ∧ w ≤ s.cfg.tBitTimeoutUs) := by
      rintro ⟨hdi, hw⟩
      obtain hlong | ⟨hlow, -⟩ := hzero
      · exact absurd hw (Nat.not_le.mpr hlong)
      · exact absurd hdi (Bool.eq_false_iff.mp hlow)
    rw [if_neg hstop, if_pos (hzero.symm.imp_left And.right)]
  · have hstop : ¬ (d.di = true ∧ w ≤ s.cfg.tBitTimeoutUs) := fun h => Bool.eq_false_iff.mp hdi h.1
    have hwidth : ¬ (w = 0 ∨ s.cfg.tBitTimeoutUs < w) := by omega
    rw [if_neg hstop, if_neg hwidth]

end Sys2Proof.Machine
end

section
/-! PROOFS. What becomes of a measured pulse: the comparator, the assembler, the checksum, and the two ends of a poll
(41_frame_decoder.md R130 to R137). -/

namespace Sys2Proof.Machine

/-- Settles O27. -/
theorem zeroResultFollowsTheLastBitPolicy : Obligations.ZeroResultFollowsTheLastBitPolicy := by
  unfold Obligations.ZeroResultFollowsTheLastBitPolicy
  intro s
  have hidx : s.bitIdx = 39#6 ↔ s.bitIdx.toNat = 39 := BitVec.toNat_inj.symm
  rw [hidx]
  obtain ⟨h39, hone, e⟩ | ⟨hnot, e⟩ := zeroResult_cases s
  · exact ⟨fun _ => e, fun hnot => absurd ⟨h39, hone⟩ hnot⟩
  · exact ⟨fun h => absurd h hnot, fun _ => e⟩

/-- Settles O28: one case per direction of the comparison. -/
theorem comparatorUsesTheThreshold : Obligations.ComparatorUsesTheThreshold := by
  unfold Obligations.ComparatorUsesTheThreshold
  intro c r
  unfold classify
  cases c.thresholdCmp <;> simp

/-- The assembler's shift as arithmetic on words: one place up, the new bit at the bottom. -/
theorem shiftIn_eq_shiftLeft_or (f : Frame) (b : Bool) : shiftIn f b = f <<< 1 ||| (if b then 1#40 else 0#40) := by
  refine BitVec.eq_of_getLsbD_eq fun i hi => ?_
  rw [shiftIn_getLsbD, BitVec.getLsbD_or, BitVec.getLsbD_shiftLeft]
  rcases i with _ | i
  · cases b <;> simp
  · cases b <;> simp [hi]

/-- Settles O29, with the shift as arithmetic. -/
theorem acceptBitShiftsAndAdvances : Obligations.AcceptBitShiftsAndAdvances := by
  unfold Obligations.AcceptBitShiftsAndAdvances
  intro b s
  rw [← shiftIn_eq_shiftLeft_or]
  obtain ⟨h, e⟩ | ⟨h, e⟩ := acceptBit_cases b s
  · exact e.trans (if_pos h).symm
  · exact e.trans (if_neg (Nat.not_lt.mpr h)).symm

/-- Settles O30: the bytes of the frame are the given ones. -/
theorem checksumDecidesTheFrame : Obligations.ChecksumDecidesTheFrame := by
  unfold Obligations.ChecksumDecidesTheFrame
  intro b0 b1 b2 b3 b4 s
  obtain ⟨e0, e1, e2, e3, e4⟩ := frameByte_frameOfBytes b0 b1 b2 b3 b4
  have hsum := checksumOk_iff (frameOfBytes b0 b1 b2 b3 b4)
  obtain ⟨hc, e⟩ | ⟨hc, e⟩ := checkFrame_cases (frameOfBytes b0 b1 b2 b3 b4) s <;>
    rw [hc, e0, e1, e2, e3, e4] at hsum <;> rw [e]
  · rw [if_pos (hsum.mp rfl), e0, e1, e2, e3]
  · rw [if_neg (fun h => Bool.false_ne_true (hsum.mpr h))]

/-- Settles O31: the answer is the cached word of the registers just written. -/
theorem successWritesTheReadingAndAnswers : Obligations.SuccessWritesTheReadingAndAnswers := by
  unfold Obligations.SuccessWritesTheReadingAndAnswers
  intro b0 b1 b2 b3 k s hk
  unfold success
  refine (complete_of_some _ k ?_).trans ?_
  · exact hk
  · cases k <;> rfl

/-- Settles O32: the answer is the cached word of the registers as they stood. -/
theorem failureKeepsTheCacheAndAnswers : Obligations.FailureKeepsTheCacheAndAnswers := by
  unfold Obligations.FailureKeepsTheCacheAndAnswers
  intro code k s hk
  unfold failPoll
  refine (complete_of_some _ k ?_).trans ?_
  · exact hk
  · cases k <;> rfl

end Sys2Proof.Machine
end

section
/-! PROOFS. A train of measured bit cells (41_frame_decoder.md R128 to R137): each cell shifts the bit of its width into
the frame, and the fortieth hands the frame to the checksum. -/

namespace Sys2Proof.Machine

variable {s u v t : State}

/-- What the bit phase leaves until its last bit is accepted: the parameters, the pending READ, the cache, the time of
the poll and the mark. -/
structure SamePoll (s u : State) : Prop where
  cfg : u.cfg = s.cfg
  pending : u.pending = s.pending
  humInt : u.humInt = s.humInt
  humFrac : u.humFrac = s.humFrac
  tempInt : u.tempInt = s.tempInt
  tempFrac : u.tempFrac = s.tempFrac
  valid : u.valid = s.valid
  lastPollMs : u.lastPollMs = s.lastPollMs
  timeRefused : u.timeRefused = s.timeRefused

theorem SamePoll.trans (h : SamePoll s u) (h' : SamePoll u v) : SamePoll s v where
  cfg := h'.cfg.trans h.cfg
  pending := h'.pending.trans h.pending
  humInt := h'.humInt.trans h.humInt
  humFrac := h'.humFrac.trans h.humFrac
  tempInt := h'.tempInt.trans h.tempInt
  tempFrac := h'.tempFrac.trans h.tempFrac
  valid := h'.valid.trans h.valid
  lastPollMs := h'.lastPollMs.trans h.lastPollMs
  timeRefused := h'.timeRefused.trans h.timeRefused

/-- The first tick of a run, whatever is scheduled after it, and then the rest. -/
theorem runDraws_cons_of_step {d : TickIn} {ds : List TickIn} (hd : step (present d s) = .next u)
    (hds : runDraws ds u = .next t) : runDraws (d :: ds) s = .next t :=
  (runDraws_cons_iff d ds s t).mpr ⟨_, step_present_withDraws d ds s u hd, hds⟩

/-- The state after the rising edge `d` of a bit: the measurement has started (R128). -/
def risen (d : TickIn) (s : State) : State := { sampled d s with tMark := d.nowUs, fsm := .bitHigh }

/-- The rising edge starts the measurement, however late it comes (R128). -/
theorem step_rise {d : TickIn} (hf : s.fsm = .bitLow) (hd : OrdinaryTick d s) (hdi : d.di = true) :
    step (present d s) = .next (risen d s) :=
  (bitLowWaitsForTheRise d s hf hd).trans (congrArg Host.Outcome.next (if_pos hdi))

/-- The falling edge of a bit, in time, accepts the bit of its width (R129). -/
theorem step_fall {d : TickIn} (hf : s.fsm = .bitHigh) (hd : OrdinaryTick d s) (hdi : d.di = false)
    (hpos : 0 < d.nowUs.toNat - s.tMark.toNat) (hle : d.nowUs.toNat - s.tMark.toNat ≤ s.cfg.tBitTimeoutUs) :
    step (present d s) = .next (acceptBit (classify s.cfg (d.nowUs.toNat - s.tMark.toNat)) (sampled d s)) := by
  rw [bitHighMeasuresThePulse d s hf hd, if_neg (by simp [hdi]), if_neg (by omega)]

/-- A train ends no earlier than it begins. -/
theorem le_trainEnd (t : Nat) (cells : List (Nat × Nat)) : t ≤ trainEnd t cells := by
  induction cells generalizing t with
  | nil => exact le_rfl
  | cons cell rest ih => exact le_trans (by omega) (ih (t + cell.1 + cell.2))

/-- The tick of an edge of a train: at time `n`, the line at its new level, no request. -/
def edge (n : Nat) (di : Bool) : TickIn :=
  { rst := false, nowUs := BitVec.ofNat Config.timeWidth n, di := di, reqValid := false, reqCmd := 0 }

theorem cellDraws_eq_edges (n : Nat) (cell : Nat × Nat) :
    cellDraws n cell = [edge (n + cell.1) true, edge (n + cell.1 + cell.2) false] := rfl

/-- An edge in time order, with room for the longest deadline, is an ordinary tick. -/
theorem ordinaryTick_edge (n : Nat) (di : Bool) (hmono : s.inp.nowUs.toNat ≤ n)
    (hend : n + s.cfg.tRespDeadlineUs < 2 ^ 64) : OrdinaryTick (edge n di) s := by
  have hn : (edge n di).nowUs.toNat = n := toNat_ofNat_time n (by omega)
  exact ⟨rfl, hn.symm ▸ hmono, hn.symm ▸ hend⟩

section
variable {cell : Nat × Nat} (hf : s.fsm = .bitLow) (hpos : 0 < cell.2) (hle : cell.2 ≤ s.cfg.tBitTimeoutUs)
  (hend : s.inp.nowUs.toNat + cell.1 + cell.2 + s.cfg.tRespDeadlineUs < 2 ^ 64)
include hf hpos hle hend

/-- One cell of a train: its two ticks bring the block to a state `u`, sampled at the falling edge, which accepts the bit
of the cell's width. -/
theorem runDraws_cell : ∃ u, SamePoll s u ∧ u.bitIdx = s.bitIdx ∧ u.frame = s.frame ∧
    u.inp.nowUs.toNat = s.inp.nowUs.toNat + cell.1 + cell.2 ∧
    ∀ ds t, runDraws ds (acceptBit (classify s.cfg cell.2) u) = .next t →
      runDraws (cellDraws s.inp.nowUs.toNat cell ++ ds) s = .next t := by
  rw [cellDraws_eq_edges]
  generalize hn : s.inp.nowUs.toNat + cell.1 = n at hend ⊢
  have hrise : (edge n true).nowUs.toNat = n := toNat_ofNat_time n (by omega)
  have hfall : (edge (n + cell.2) false).nowUs.toNat = n + cell.2 := toNat_ofNat_time (n + cell.2) (by omega)
  have hup := step_rise hf (ordinaryTick_edge n true (by omega) (by omega)) rfl
  have hwidth : (edge (n + cell.2) false).nowUs.toNat - (risen (edge n true) s).tMark.toNat = cell.2 := by
    rw [hfall, show (risen (edge n true) s).tMark.toNat = n from hrise, Nat.add_sub_cancel_left]
  have hdown := step_fall (s := risen (edge n true) s) rfl
    (ordinaryTick_edge (n + cell.2) false (hrise.le.trans (Nat.le_add_right _ _)) hend) rfl
    (hwidth.symm ▸ hpos) (hwidth.symm ▸ hle)
  rw [hwidth] at hdown
  exact ⟨sampled (edge (n + cell.2) false) (risen (edge n true) s), by constructor <;> rfl, rfl, rfl, hfall,
    fun ds t h => runDraws_cons_of_step hup (runDraws_cons_of_step hdown h)⟩

/-- A cell before bit 39 appends its bit and brings the block to the start of the next cell (R132, R133). -/
theorem runDraws_cell_of_lt (hidx : s.bitIdx.toNat < 39) : ∃ u, SamePoll s u ∧ u.fsm = .bitLow ∧
    u.bitIdx.toNat = s.bitIdx.toNat + 1 ∧ u.frame = shiftIn s.frame (classify s.cfg cell.2) ∧
    u.inp.nowUs.toNat = s.inp.nowUs.toNat + cell.1 + cell.2 ∧
    ∀ ds t, runDraws ds u = .next t → runDraws (cellDraws s.inp.nowUs.toNat cell ++ ds) s = .next t := by
  obtain ⟨u, hsu, hbit, hframe, hnow, hrun⟩ := runDraws_cell hf hpos hle hend
  have hnext : (u.bitIdx + 1).toNat = s.bitIdx.toNat + 1 := by rw [hbit]; bv_omega
  obtain ⟨-, e⟩ | ⟨hlast, -⟩ := acceptBit_cases (classify s.cfg cell.2) u
  · refine ⟨acceptBit (classify s.cfg cell.2) u, ?_, ?_, ?_, ?_, ?_, hrun⟩ <;> rw [e]
    · exact hsu.trans (by constructor <;> rfl)
    · exact hnext
    · exact congrArg (shiftIn · _) hframe
    · exact hnow
  · rw [hbit] at hlast
    omega

/-- The cell of bit 39 appends its bit and hands the whole frame to the checksum, with CRIT released (R133). -/
theorem runDraws_cell_of_eq (hidx : s.bitIdx.toNat = 39) : ∃ u, SamePoll s u ∧ u.crit = false ∧
    u.frame = shiftIn s.frame (classify s.cfg cell.2) ∧
    u.inp.nowUs.toNat = s.inp.nowUs.toNat + cell.1 + cell.2 ∧
    runDraws (cellDraws s.inp.nowUs.toNat cell) s = .next (checkFrame u.frame u) := by
  obtain ⟨u, hsu, hbit, hframe, hnow, hrun⟩ := runDraws_cell hf hpos hle hend
  obtain ⟨hlt, -⟩ | ⟨-, e⟩ := acceptBit_cases (classify s.cfg cell.2) u
  · rw [hbit] at hlt
    omega
  · rw [e, hframe] at hrun
    refine ⟨{ u with frame := shiftIn s.frame (classify s.cfg cell.2), crit := false, draws := [] },
      hsu.trans (by constructor <;> rfl), rfl, rfl, hnow, hrun [] _ ?_⟩
    rw [runDraws_nil, ← checkFrame_withDraws]

end

/-- The frame after a train of cells: the bits of their widths shifted in, in order. -/
def trainFrame (c : Config) (f : Frame) (cells : List (Nat × Nat)) : Frame :=
  (cells.map fun cell => classify c cell.2).foldl shiftIn f

/-- A train that ends with bit 39 comes to the checksum of its frame, with the poll as it was at the start. -/
theorem runDraws_train (cells : List (Nat × Nat)) (hf : s.fsm = .bitLow) (hne : cells ≠ [])
    (hidx : s.bitIdx.toNat + cells.length = 40) (hw : ∀ c ∈ cells, 0 < c.2 ∧ c.2 ≤ s.cfg.tBitTimeoutUs)
    (hend : trainEnd s.inp.nowUs.toNat cells + s.cfg.tRespDeadlineUs < 2 ^ 64) :
    ∃ u, SamePoll s u ∧ u.crit = false ∧ u.frame = trainFrame s.cfg s.frame cells ∧
      u.inp.nowUs.toNat = trainEnd s.inp.nowUs.toNat cells ∧
      runDraws (trainDraws s.inp.nowUs.toNat cells) s = .next (checkFrame u.frame u) := by
  induction cells generalizing s with
  | nil => exact absurd rfl hne
  | cons cell rest ih =>
    obtain ⟨hcell, hwrest⟩ := List.forall_mem_cons.mp hw
    obtain ⟨hpos, hle⟩ := hcell
    rw [List.length_cons] at hidx
    have hlater := le_trainEnd (s.inp.nowUs.toNat + cell.1 + cell.2) rest
    have hcellEnd : s.inp.nowUs.toNat + cell.1 + cell.2 + s.cfg.tRespDeadlineUs < 2 ^ 64 :=
      (Nat.add_le_add_right hlater _).trans_lt hend
    by_cases hrest : rest = []
    · subst hrest
      exact runDraws_cell_of_eq hf hpos hle hcellEnd (by simpa using hidx)
    · have hlen := List.length_pos_iff.mpr hrest
      obtain ⟨u, hsu, hfu, hbit, hframe, hnow, hrun⟩ := runDraws_cell_of_lt hf hpos hle hcellEnd (by omega)
      obtain ⟨v, huv, hv⟩ := ih hfu hrest (by omega) (hsu.cfg.symm ▸ hwrest) (by rw [hnow, hsu.cfg]; exact hend)
      rw [hnow, hframe, hsu.cfg] at hv
      obtain ⟨hcrit, hframe', hnow', hrest'⟩ := hv
      exact ⟨v, hsu.trans huv, hcrit, hframe', hnow', hrun _ _ hrest'⟩

/-- Settles O56: the train comes to the checksum of its frame, which ends the poll as a success or as a mismatch. -/
theorem fortyPulsesDecodeToTheirFrame : Obligations.FortyPulsesDecodeToTheirFrame := by
  unfold Obligations.FortyPulsesDecodeToTheirFrame
  intro cells k s hf hidx hk hlen hw hend F passes
  obtain ⟨u, hsu, hcrit, hframe, hnow, hrun⟩ :=
    runDraws_train cells hf (List.ne_nil_of_length_pos (by omega)) (by rw [hidx, hlen]; rfl) hw hend
  have hframe : u.frame = F := hframe
  have hku : u.pending = some k := hsu.pending.trans hk
  rw [hframe] at hrun
  refine ⟨_, hrun, ?_⟩
  obtain ⟨hc, e⟩ | ⟨hc, e⟩ := checkFrame_cases F u <;> rw [e]
  · have hpass : passes % 256 = (frameByte F 4).toNat := (checksumOk_iff F).mp hc
    rw [successWritesTheReadingAndAnswers _ _ _ _ k u hku]
    exact ⟨hframe, rfl, rfl, hcrit, hsu.lastPollMs, hnow, hsu.timeRefused, rfl, rfl,
      fun _ => ⟨rfl, rfl, rfl, rfl, rfl, rfl, rfl⟩, fun hne => absurd hpass hne⟩
  · have hmiss : passes % 256 ≠ (frameByte F 4).toNat := fun h =>
      Bool.false_ne_true (hc.symm.trans ((checksumOk_iff F).mpr h))
    rw [failureKeepsTheCacheAndAnswers _ k u hku]
    refine ⟨hframe, rfl, rfl, rfl, hsu.lastPollMs, hnow, hsu.timeRefused, rfl, rfl, fun h => absurd h hmiss,
      fun _ => ⟨rfl, hsu.valid, hsu.humInt, hsu.humFrac, hsu.tempInt, hsu.tempFrac, ?_⟩⟩
    rw [hsu.humInt, hsu.humFrac, hsu.tempInt, hsu.tempFrac]

end Sys2Proof.Machine
end

section
/-! PROOFS. How IDLE is left (41_frame_decoder.md R141). -/

namespace Sys2Proof.Machine

/-- Settles O38: neither a refused tick nor a reset leaves IDLE, and the one move of IDLE that does is the start of a
poll. -/
theorem onlyAStaleReadLeavesIdle : Obligations.OnlyAStaleReadLeavesIdle := by
  unfold Obligations.OnlyAStaleReadLeavesIdle
  intro s t h hidle hbusy
  obtain rfl | ⟨-, rfl⟩ | ⟨hr, hm⟩ := step_move h
  · exact absurd hidle hbusy
  · exact absurd rfl hbusy
  cases hm with
  | wait => exact absurd hidle hbusy
  | respond => exact absurd hidle hbusy
  | startPoll k hf hv hk hs =>
    have hkind : decode (nextDraw s).reqCmd = .readTemperature ∧ some k = some ReadKind.temp ∨
        decode (nextDraw s).reqCmd = .readHumidity ∧ some k = some ReadKind.hum := by
      simpa only [Option.some.injEq, latch_inp] using hk
    exact ⟨hr, hv, (isStale_iff _).mp hs, hkind, rfl, toNat_ofNat_nowMs _, rfl, rfl, rfl, rfl⟩
  | _ => simp_all [readsLine] -- every other move starts in a busy state

end Sys2Proof.Machine
end

section
/-! PROOFS. What each rule reads of the sampled ports, and where the last-bit policy is read: run with another policy and
other ports that agree where the rule reads them, a rule makes the same move (41_frame_decoder.md R120 to R137, R140). -/

namespace Sys2Proof.Machine

variable {p : LastBitPolicy} {d e : TickIn} {s t u v s' : State}

/-- `s` under another last-bit policy and with other ports sampled. -/
def withEnv (p : LastBitPolicy) (e : TickIn) (s : State) : State :=
  { s with cfg := { s.cfg with lastBitPolicy := p }, inp := e }

@[simp] theorem withEnv_cfg : (withEnv p e s).cfg = { s.cfg with lastBitPolicy := p } := rfl
@[simp] theorem withEnv_fsm : (withEnv p e s).fsm = s.fsm := rfl
@[simp] theorem withEnv_bitIdx : (withEnv p e s).bitIdx = s.bitIdx := rfl
@[simp] theorem withEnv_frame : (withEnv p e s).frame = s.frame := rfl
@[simp] theorem withEnv_tMark : (withEnv p e s).tMark = s.tMark := rfl
@[simp] theorem withEnv_deadline : (withEnv p e s).deadline = s.deadline := rfl
@[simp] theorem withEnv_inp : (withEnv p e s).inp = e := rfl

/-! ### The shared operations -/

theorem complete_withEnv : complete (withEnv p e s) = withEnv p e (complete s) := by
  cases h : s.pending <;> simp only [complete, respondPending, withEnv, h, respond, cachedWord]

theorem failPoll_withEnv (code : Status) : failPoll code (withEnv p e s) = withEnv p e (failPoll code s) :=
  complete_withEnv (s := { s with lastStatus := code, crit := false, pinOe := false, pinPu := true })

theorem checkFrame_withEnv (f : Frame) : checkFrame f (withEnv p e s) = withEnv p e (checkFrame f s) := by
  unfold checkFrame
  split
  · exact complete_withEnv (s := { s with
      humInt := frameByte f 0, humFrac := frameByte f 1, tempInt := frameByte f 2, tempFrac := frameByte f 3,
      valid := true, lastStatus := .ok })
  · exact failPoll_withEnv .checksumMismatch

/-! ### The rules, each of which reads the time -/

section
variable (hnow : e.nowUs = s.inp.nowUs)
include hnow

theorem acceptBit_withEnv (b : Bool) : acceptBit b (withEnv p e s) = withEnv p e (acceptBit b s) := by
  by_cases h : s.bitIdx.toNat < Config.nBits - 1
  · simp only [acceptBit, advanceBit, withEnv, h, if_true, hnow]
  · simp only [acceptBit, advanceBit, withEnv_bitIdx, withEnv_frame, h, if_false]
    exact checkFrame_withEnv _ (s := { s with frame := shiftIn s.frame b, crit := false })

theorem isStale_withEnv : isStale (withEnv p e s) = isStale s := by
  simp only [isStale, withEnv, hnow]

theorem readCommand_withEnv (k : ReadKind) : readCommand k (withEnv p e s) = withEnv p e (readCommand k s) := by
  unfold readCommand
  rw [isStale_withEnv hnow]
  split
  · simp only [startPoll, withEnv, hnow]
  · cases k <;> rfl

theorem exec_withEnv (i : Instr) (h : exec i s = .next t) : exec i (withEnv p e s) = .next (withEnv p e t) := by
  cases i <;> cases h
  case readTemperature => exact congrArg Host.Outcome.next (readCommand_withEnv hnow .temp)
  case readHumidity => exact congrArg Host.Outcome.next (readCommand_withEnv hnow .hum)
  case hasStaleData =>
    rw [exec, execHasStaleData, isStale_withEnv hnow]
    rfl
  all_goals rfl

/-- IDLE reads the request (42_host_commands.md R171). -/
theorem idleTick_withEnv (hreq : e.reqValid = s.inp.reqValid ∧ e.reqCmd = s.inp.reqCmd) (h : idleTick s = .next t) :
    idleTick (withEnv p e s) = .next (withEnv p e t) := by
  obtain ⟨hvalid, hcmd⟩ := hreq
  unfold idleTick at h ⊢
  rw [withEnv_inp, hvalid, hcmd]
  split at h
  · next hv => rw [if_pos hv]; exact exec_withEnv hnow _ h
  · next hv => rw [if_neg hv]; cases h; rfl

theorem startLowTick_withEnv : startLowTick (withEnv p e s) = withEnv p e (startLowTick s) := by
  cases h : delayElapsed s.cfg.tStartUs s.inp.nowUs s.tMark <;>
    simp only [startLowTick, withEnv, hnow, h, Bool.false_eq_true, if_false, if_true]

theorem startHighTick_withEnv : startHighTick (withEnv p e s) = withEnv p e (startHighTick s) := by
  cases h : delayElapsed s.cfg.tReleaseUs s.inp.nowUs s.tMark <;>
    simp only [startHighTick, withEnv, hnow, h, Bool.false_eq_true, if_false, if_true]

/-- The last-bit policy is read on the zero result of bit 39 only (R130). -/
theorem zeroResult_withEnv (hp : s.bitIdx.toNat = 39 → p = s.cfg.lastBitPolicy) :
    zeroResult (withEnv p e s) = withEnv p e (zeroResult s) := by
  have hlast : (s.bitIdx.toNat = 39 ∧ p = .one) ↔ (s.bitIdx.toNat = 39 ∧ s.cfg.lastBitPolicy = .one) :=
    and_congr_right fun h => by rw [hp h]
  unfold zeroResult
  by_cases h : s.bitIdx.toNat = 39 ∧ s.cfg.lastBitPolicy = .one
  · exact (if_pos (hlast.mpr h)).trans ((acceptBit_withEnv hnow true).trans (congrArg _ (if_pos h).symm))
  · exact (if_neg (mt hlast.mp h)).trans ((failPoll_withEnv .bitTimeout).trans (congrArg _ (if_neg h).symm))

/-! ### The rules that read the line -/

variable (hdi : e.di = s.inp.di)
include hdi

theorem respCheckTick_withEnv : respCheckTick (withEnv p e s) = withEnv p e (respCheckTick s) := by
  unfold respCheckTick
  rw [withEnv_inp, hdi]
  split
  · exact failPoll_withEnv .noResponse
  · rw [hnow]; rfl

theorem preLowTick_withEnv : preLowTick (withEnv p e s) = withEnv p e (preLowTick s) := by
  unfold preLowTick
  rw [withEnv_inp, withEnv_deadline, hdi, hnow]
  split
  · rfl
  · exact failPoll_withEnv .handshakeTimeout
  · rfl

theorem preHighTick_withEnv : preHighTick (withEnv p e s) = withEnv p e (preHighTick s) := by
  unfold preHighTick
  rw [withEnv_inp, withEnv_deadline, hdi, hnow]
  split
  · rfl
  · exact failPoll_withEnv .handshakeTimeout
  · rfl

theorem bitLowTick_withEnv : bitLowTick (withEnv p e s) = withEnv p e (bitLowTick s) := by
  unfold bitLowTick
  rw [withEnv_inp, withEnv_deadline, hdi, hnow]
  split
  · rfl
  · exact failPoll_withEnv .bitTimeout
  · rfl

theorem bitHighTick_withEnv (hp : s.bitIdx.toNat = 39 → p = s.cfg.lastBitPolicy) :
    bitHighTick (withEnv p e s) = withEnv p e (bitHighTick s) := by
  rcases h : measurePulseWidth s.cfg.tBitTimeoutUs s.inp.di s.inp.nowUs s.tMark with _ | _ | r <;>
    simp only [bitHighTick, withEnv_cfg, withEnv_inp, withEnv_tMark, hdi, hnow, h]
  · exact zeroResult_withEnv hnow hp
  · exact acceptBit_withEnv hnow _

end

/-- The policy `p` and the ports `e` agree with those of `u` wherever the rule of `u`'s state reads them. -/
structure ReadsAlike (p : LastBitPolicy) (e : TickIn) (u : State) : Prop where
  now : e.nowUs = u.inp.nowUs
  request : u.fsm = .idle → e.reqValid = u.inp.reqValid ∧ e.reqCmd = u.inp.reqCmd
  line : readsLine u.fsm = true → e.di = u.inp.di
  policy : u.fsm = .bitHigh → u.bitIdx.toNat = 39 → p = u.cfg.lastBitPolicy

/-- The rule of a state makes the same move on all that it does not read. -/
theorem ReadsAlike.stateRule_withEnv (hr : ReadsAlike p e u) (h : stateRule u = .next v) :
    stateRule (withEnv p e u) = .next (withEnv p e v) := by
  obtain ⟨hnow, hreq, hdi, hp⟩ := hr
  unfold stateRule at h ⊢
  rw [withEnv_fsm]
  cases hf : u.fsm <;> simp only [hf, readsLine, forall_const] at h hreq hdi hp ⊢
  case idle => exact idleTick_withEnv hnow hreq h
  all_goals cases h; refine congrArg Host.Outcome.next ?_
  case startLow => exact startLowTick_withEnv hnow
  case startHigh => exact startHighTick_withEnv hnow
  case respCheck => exact respCheckTick_withEnv hnow hdi
  case preLow => exact preLowTick_withEnv hnow hdi
  case preHigh => exact preHighTick_withEnv hnow hdi
  case bitLow => exact bitLowTick_withEnv hnow hdi
  case bitHigh => exact bitHighTick_withEnv hnow hdi hp

/-- Two ticks with the same reset and time, from states alike in what the rule reads, end alike: neither a refusal nor a
reset reads the line, the request or the policy. -/
theorem tickWith_withEnv (hr : ReadsAlike p e (latch d s)) (hl : latch e s' = withEnv p e (latch d s))
    (hrst : e.rst = d.rst)
    (ha : timeAdmissible s'.cfg s'.inp.nowUs e.nowUs = timeAdmissible s.cfg s.inp.nowUs d.nowUs)
    (h : tickWith d s = .next t) : tickWith e s' = .next (withEnv p e t) := by
  cases had : timeAdmissible s.cfg s.inp.nowUs d.nowUs
  · rw [tickWith_of_refused d s had] at h
    rw [tickWith_of_refused e s' (ha.trans had), hl]
    cases h
    rfl
  · cases hd : d.rst
    · rw [tickWith_of_rule d s had hd] at h
      rw [tickWith_of_rule e s' (ha.trans had) (hrst.trans hd), hl]
      exact hr.stateRule_withEnv h
    · rw [tickWith_of_reset d s had hd] at h
      rw [tickWith_of_reset e s' (ha.trans had) (hrst.trans hd), hl]
      cases h
      rfl

/-- Settles O46: the rules of these three states do not read the line. -/
theorem theLineIsIgnoredWhereItIsNotRead : Obligations.TheLineIsIgnoredWhereItIsNotRead := by
  unfold Obligations.TheLineIsIgnoredWhereItIsNotRead
  intro d b s t hf h
  obtain ⟨hcfg, -⟩ := everyTickSamplesItsPorts _ _ h
  have hblind : readsLine s.fsm = false := by obtain hf | hf | hf := hf <;> rw [hf] <;> rfl
  have hr : ReadsAlike s.cfg.lastBitPolicy { d with di := b } (latch d (present d s)) :=
    ⟨rfl, fun _ => ⟨rfl, rfl⟩, fun h => absurd (hblind.symm.trans h) Bool.false_ne_true, fun _ _ => rfl⟩
  have h' := tickWith_withEnv (s' := present { d with di := b } s) hr rfl rfl rfl h
  exact h'.trans (by rw [← present_cfg d s, ← hcfg]; rfl)

/-- Settles O47: only the rule of BIT_HIGH reads the policy, and only at bit 39. -/
theorem theLastBitPolicyTouchesOnlyBit39 : Obligations.TheLastBitPolicyTouchesOnlyBit39 := by
  unfold Obligations.TheLastBitPolicyTouchesOnlyBit39
  intro p s t hs h
  obtain ⟨-, hinp, -⟩ := everyTickSamplesItsPorts _ _ h
  have hr : ReadsAlike p (nextDraw s) (latch (nextDraw s) s) := by
    refine ⟨rfl, fun _ => ⟨rfl, rfl⟩, fun _ => rfl, fun hf h39 => ?_⟩
    exact absurd (BitVec.eq_of_toNat_eq h39) (hs.resolve_left (not_not_intro hf))
  have h' := tickWith_withEnv (s' := { s with cfg := { s.cfg with lastBitPolicy := p } }) hr rfl rfl rfl h
  exact h'.trans (by rw [← hinp]; rfl)

end Sys2Proof.Machine
end

section
/-! PROOFS. The commands on the tick that accepts them (42_host_commands.md R160 to R173): what each answers or starts,
what none of them changes, which ticks respond, and that a running poll ignores requests. -/

namespace Sys2Proof.Machine

variable {d : TickIn} {s t u : State}

/-! ### The commands (42_host_commands.md R163 to R170) -/

/-- A READ that finds the cache stale starts a poll (R163, R164). -/
theorem readCommand_of_stale (k : ReadKind)
    (h : s.lastPollMs.toNat + s.cfg.minPollIntervalMs < s.inp.nowUs.toNat / 1000) :
    readCommand k s = startPoll k s :=
  if_pos ((isStale_iff s).mpr h)

/-- A READ that finds the cache fresh answers it at once (R165, R166). -/
theorem readCommand_of_fresh (k : ReadKind)
    (h : ¬ s.lastPollMs.toNat + s.cfg.minPollIntervalMs < s.inp.nowUs.toNat / 1000) :
    readCommand k s = respond (cachedWord k s) false s :=
  if_neg (mt (isStale_iff s).mp h)

/-- Settles O5: the READ of the temperature. -/
theorem readTemperaturePollsOrAnswers : Obligations.ReadTemperaturePollsOrAnswers := by
  unfold Obligations.ReadTemperaturePollsOrAnswers
  intro s
  exact ⟨fun h => congrArg Host.Outcome.next (readCommand_of_stale .temp h),
    fun h => congrArg Host.Outcome.next (readCommand_of_fresh .temp h)⟩

/-- Settles O6: the READ of the humidity. -/
theorem readHumidityPollsOrAnswers : Obligations.ReadHumidityPollsOrAnswers := by
  unfold Obligations.ReadHumidityPollsOrAnswers
  intro s
  exact ⟨fun h => congrArg Host.Outcome.next (readCommand_of_stale .hum h),
    fun h => congrArg Host.Outcome.next (readCommand_of_fresh .hum h)⟩

/-- The word of a flag, by its value (30_encoding.md R75). -/
theorem flagWord_eq_ite (f : Bool) : flagWord f = if f then 0x0001#16 else 0x0000#16 := by
  cases f <;> simp

/-- Settles O7. -/
theorem hasValidDataAnswersValid : Obligations.HasValidDataAnswersValid := by
  unfold Obligations.HasValidDataAnswersValid
  intro s
  rw [← flagWord_eq_ite]
  rfl

/-- Settles O8: the flag is the staleness predicate of R163. -/
theorem hasStaleDataAnswersStaleness : Obligations.HasStaleDataAnswersStaleness := by
  unfold Obligations.HasStaleDataAnswersStaleness
  intro s
  simp only [← isStale_iff, ← flagWord_eq_ite]
  rfl

/-- Settles O9: one case per code of 60_exceptions.md R190. -/
theorem readStatusAnswersTheCode : Obligations.ReadStatusAnswersTheCode := by
  unfold Obligations.ReadStatusAnswersTheCode
  intro s
  rw [exec, execReadStatus, respond]
  cases s.lastStatus <;> rfl

/-- Settles O10: the three arms of the reserved codes answer the same word. -/
theorem reservedCodesAnswerTheError : Obligations.ReservedCodesAnswerTheError := by
  unfold Obligations.ReservedCodesAnswerTheError
  rintro s i (rfl | rfl | rfl) <;> rfl

/-- Settles O11: a command starts a poll, which writes six registers, or it writes the response outputs alone. -/
theorem commandsChangeOnlyWhatTheirRulesName : Obligations.CommandsChangeOnlyWhatTheirRulesName := by
  unfold Obligations.CommandsChangeOnlyWhatTheirRulesName
  intro i s t h
  obtain ⟨k, hk, hs, rfl⟩ | ⟨data, -, rfl⟩ | ⟨-, rfl⟩ := exec_cases i s t h
  · have hread : i = .readTemperature ∨ i = .readHumidity := hk.imp And.left And.left
    exact ⟨by simp, .inl ⟨hread, (isStale_iff s).mp hs, rfl⟩⟩
  · exact ⟨by simp, .inr (by simp)⟩
  · exact ⟨by simp, .inr (by simp)⟩

/-! ### The tick that accepts a command (42_host_commands.md R160, R171) -/

theorem step_present_of_idle (hf : s.fsm = .idle) (hd : OrdinaryTick d s) :
    step (present d s) = idleTick (sampled d s) := by
  rw [step_present_of_ordinary d s hd, stateRule, sampled_fsm, hf]

theorem idleTick_of_request (h : s.inp.reqValid = true) : idleTick s = exec (decode s.inp.reqCmd) s :=
  if_pos h

theorem idleTick_of_no_request (h : s.inp.reqValid = false) : idleTick s = .next s :=
  if_neg (Bool.eq_false_iff.mp h)

/-- In IDLE the word of a command on the port runs that command. -/
theorem step_present_of_command (i : Instr) (hf : s.fsm = .idle) (hd : OrdinaryTick d s) (hv : d.reqValid = true)
    (hi : d.reqCmd = encode i) : step (present d s) = exec i (sampled d s) := by
  rw [step_present_of_idle hf hd, idleTick_of_request (s := sampled d s) hv, sampled_inp, hi, decode_encode]

/-- Settles O12, with one word per command. -/
theorem idleTickRunsTheRequestedCommand : Obligations.IdleTickRunsTheRequestedCommand := by
  unfold Obligations.IdleTickRunsTheRequestedCommand
  intro d s hf hd
  refine ⟨fun hv => (step_present_of_idle hf hd).trans (idleTick_of_no_request (s := sampled d s) hv), fun hv => ?_⟩
  have run (i : Instr) : d.reqCmd = encode i → step (present d s) = exec i (sampled d s) :=
    step_present_of_command i hf hd hv
  exact ⟨run .readTemperature, run .readHumidity, run .hasValidData, run .hasStaleData, run .readStatus, run .rsvd0,
    run .rsvd6, run .rsvd7⟩

/-- A table word that decodes to a command holds the three bits of its code. -/
theorem word_of_decodeTableWord {w : Nat} {i : Instr} (h : decodeTableWord 8 w = some i) :
    w < 8 ∧ BitVec.ofNat 3 w = encode i := by
  have hw : w < 8 := by
    by_contra hge
    simp [decodeTableWord_of_ge w (Nat.le_of_not_lt hge)] at h
  rw [decodeTableWord_of_lt w hw, Option.some.injEq] at h
  exact ⟨hw, (decode_eq_iff _ i).mp h⟩

/-- Settles O13: the placed draw is an ordinary tick that offers the command's word in IDLE. -/
theorem stepRunsThePlacedCommand : Obligations.StepRunsThePlacedCommand := by
  unfold Obligations.StepRunsThePlacedCommand
  intro s w i hw hnowrap
  obtain ⟨hlt, hword⟩ := word_of_decodeTableWord hw
  have hd : OrdinaryTick (commandDraw (encode i) s) { s with fsm := .idle } := ⟨rfl, le_rfl, hnowrap⟩
  rw [State.withFetchWord, Nat.mod_eq_of_lt (by omega), hword]
  exact step_present_of_command i rfl hd rfl rfl

/-! ### Which ticks respond (42_host_commands.md R162, R173) -/

/-- A command responds exactly if it stays in IDLE. -/
theorem exec_responds_iff {i : Instr} (h : exec i u = .next t) (hidle : u.fsm = .idle)
    (ho : u.out.rspValid = false) : t.out.rspValid = true ↔ t.fsm = .idle := by
  obtain ⟨k, -, -, rfl⟩ | ⟨data, -, rfl⟩ | ⟨-, rfl⟩ := exec_cases i u t h
  · simp [ho]
  · simp [hidle]
  · simp [hidle]

/-- With a READ pending the end of a poll answers it. -/
theorem respondPending_out_rspValid (h : s.pending ≠ none) : (respondPending s).out.rspValid = true := by
  obtain ⟨k, -, e⟩ | ⟨hnone, -⟩ := respondPending_out_cases s
  · rw [e]
  · exact absurd hnone h

/-- The rule of a busy state responds exactly if it ends the poll. -/
theorem RuleMove.responds_iff_of_busy (hm : RuleMove u t) (hbusy : u.fsm ≠ .idle) (hp : u.pending ≠ none)
    (ho : u.out.rspValid = false) : t.out.rspValid = true ↔ t.fsm = .idle := by
  cases hm with
  | respond data err hf => exact absurd hf hbusy
  | startPoll k hf => exact absurd hf hbusy
  | frameOk f => exact iff_of_true (respondPending_out_rspValid hp) rfl
  | frameBad f => exact iff_of_true (respondPending_out_rspValid hp) rfl
  | giveUp code => exact iff_of_true (respondPending_out_rspValid hp) rfl
  | _ => simp [ho, hbusy]

/-- Settles O43: in IDLE the tick responds if its command stays there, in a busy state if it ends the poll, and the
register invariant says that a READ is then pending. -/
theorem aTickRespondsExactlyOnCompletion : Obligations.ATickRespondsExactlyOnCompletion := by
  unfold Obligations.ATickRespondsExactlyOnCompletion
  intro d s t hs hd h
  by_cases hf : s.fsm = .idle
  · rw [step_present_of_idle hf hd] at h
    cases hv : d.reqValid
    · rw [idleTick_of_no_request (s := sampled d s) hv] at h
      cases h
      simp [hf]
    · rw [idleTick_of_request (s := sampled d s) hv] at h
      simp [exec_responds_iff h hf rfl, hf]
  · rw [step_present_of_ordinary d s hd] at h
    have hpending : s.pending ≠ none := mt hs.pending_none_iff_idle.mp hf
    simp [(stateRule_move h).responds_iff_of_busy hf hpending rfl, hf]

/-! ### A request while a poll runs (42_host_commands.md R160, R172) -/

/-- Settles O45: only the rule of IDLE reads the request. -/
theorem requestsAreIgnoredWhileAPollRuns : Obligations.RequestsAreIgnoredWhileAPollRuns := by
  unfold Obligations.RequestsAreIgnoredWhileAPollRuns
  intro d v c s t hbusy h
  obtain ⟨hcfg, -⟩ := everyTickSamplesItsPorts _ _ h
  have hr : ReadsAlike s.cfg.lastBitPolicy { d with reqValid := v, reqCmd := c } (latch d (present d s)) :=
    ⟨rfl, fun hidle => absurd hidle hbusy, fun _ => rfl, fun _ _ => rfl⟩
  have h' := tickWith_withEnv (s' := present { d with reqValid := v, reqCmd := c } s) hr rfl rfl rfl h
  exact h'.trans (by rw [← present_cfg d s, ← hcfg]; rfl)

end Sys2Proof.Machine
end

section
/-! PROOFS. Runs without a reset: what every such step keeps holds at the end of the run, and so the polls that start in
it are the interval apart (42_host_commands.md R163, 70_reset_and_hazards.md R228). -/

namespace Sys2Proof.Machine

variable {s t : State}

/-- A property that no scheduling and no step without a reset breaks holds at the end of a run without a reset. -/
theorem runDraws_preserves {P : State → Prop} (ds : List TickIn)
    (hsched : ∀ (es : List TickIn) (u : State), P u → P { u with draws := es })
    (hstep : ∀ u v : State, step u = .next v → v.inp.rst = false → P u → P v)
    (hds : noReset ds) (hrun : runDraws ds s = .next t) (hs : P s) : P t := by
  induction ds generalizing s with
  | nil =>
    rw [runDraws_nil] at hrun
    cases hrun
    exact hsched [] s hs
  | cons d ds ih =>
    obtain ⟨u, hu, hrest⟩ := (runDraws_cons_iff d ds s t).mp hrun
    obtain ⟨hd, hds⟩ := List.forall_mem_cons.mp hds
    obtain ⟨-, hinp, -⟩ := everyTickSamplesItsPorts _ _ hu
    have hrst : u.inp.rst = false := by rw [hinp]; exact hd
    exact ih hds hrest (hstep _ u hu hrst (hsched (d :: ds) s hs))

/-- `LAST_POLL_MS` of `u` is that of `s`, or more than the interval after it, under the same parameters. -/
def PollsApart (s u : State) : Prop :=
  u.cfg = s.cfg ∧
    (u.lastPollMs = s.lastPollMs ∨ s.lastPollMs.toNat + s.cfg.minPollIntervalMs < u.lastPollMs.toNat)

/-- Where a step moves `LAST_POLL_MS`, it moves it on by more than the interval. -/
theorem pollsApart_step (u v : State) (h : step u = .next v) (hr : v.inp.rst = false) (hu : PollsApart s u) :
    PollsApart s v := by
  obtain ⟨hcfg, hpoll⟩ := hu
  obtain ⟨hcfg', -⟩ := everyTickSamplesItsPorts u v h
  refine ⟨hcfg'.trans hcfg, ?_⟩
  by_cases hsame : v.lastPollMs = u.lastPollMs
  · rw [hsame]
    exact hpoll
  · obtain hrst | ⟨-, -, -, hlate⟩ := lastPollIsWrittenOnlyAtAPollStart u v h hsame
    · exact absurd (hr.symm.trans hrst) Bool.false_ne_true
    · rw [hcfg] at hlate
      obtain e | hlt := hpoll
      · rw [e] at hlate
        exact .inr hlate
      · right; omega

/-- Settles O54, by the invariant `PollsApart` along the run. -/
theorem pollStartsAreTheIntervalApart : Obligations.PollStartsAreTheIntervalApart := by
  unfold Obligations.PollStartsAreTheIntervalApart
  intro ds s t hds hrun
  obtain ⟨-, hpoll⟩ : PollsApart s t :=
    runDraws_preserves ds (fun _ _ hu => hu) pollsApart_step hds hrun ⟨rfl, .inl rfl⟩
  exact hpoll

end Sys2Proof.Machine
end

section
/-! PROOFS. A poll from its start to the tick that ends it (42_host_commands.md R174): as long as it runs it leaves the
pending READ and the cache, and its last tick is `success` on a passing frame or `fail` with one of the four codes. -/

namespace Sys2Proof.Machine

variable {s t u v : State}

/-! ### While the poll runs -/

/-- The pending READ, the readings and `VALID` of `u` are those of `s`. -/
structure SameCache (s u : State) : Prop where
  pending : u.pending = s.pending
  humInt : u.humInt = s.humInt
  humFrac : u.humFrac = s.humFrac
  tempInt : u.tempInt = s.tempInt
  tempFrac : u.tempFrac = s.tempFrac
  valid : u.valid = s.valid

theorem SameCache.trans (h : SameCache s u) (h' : SameCache u v) : SameCache s v where
  pending := h'.pending.trans h.pending
  humInt := h'.humInt.trans h.humInt
  humFrac := h'.humFrac.trans h.humFrac
  tempInt := h'.tempInt.trans h.tempInt
  tempFrac := h'.tempFrac.trans h.tempFrac
  valid := h'.valid.trans h.valid

/-- Of the moves of a busy state only those to IDLE touch the pending READ or the cache. -/
theorem RuleMove.sameCache_of_busy (hm : RuleMove u t) (hbusy : u.fsm ≠ .idle) (ht : t.fsm ≠ .idle) :
    SameCache u t := by
  cases hm with
  | startPoll k hf => exact absurd hf hbusy
  | respond data err hf => exact absurd hf hbusy
  | frameOk | frameBad | giveUp => exact absurd rfl ht
  | _ => constructor <;> rfl

/-- A step from a busy state to a busy state is one of the poll that runs. -/
theorem step_sameCache_of_busy (h : step u = .next v) (hr : v.inp.rst = false) (hu : u.fsm ≠ .idle)
    (hv : v.fsm ≠ .idle) : SameCache u v := by
  obtain rfl | hm := step_move_of_not_rst h hr
  · constructor <;> rfl
  · have hl : SameCache u (latch (nextDraw u) u) := by constructor <;> rfl
    exact hl.trans (hm.sameCache_of_busy hu hv)

/-- As long as the poll of `s` runs, which `LAST_POLL_MS` says, its READ and the cache are those of `s`. -/
def PollKeepsCache (s u : State) : Prop :=
  s.lastPollMs.toNat ≤ u.lastPollMs.toNat ∧
    (u.fsm ≠ .idle → u.lastPollMs = s.lastPollMs → SameCache s u)

theorem pollKeepsCache_withDraws (es : List TickIn) (u : State) (hu : PollKeepsCache s u) :
    PollKeepsCache s { u with draws := es } := by
  obtain ⟨hle, hcache⟩ := hu
  exact ⟨hle, fun hbusy hlast => (hcache hbusy hlast).trans (by constructor <;> rfl)⟩

/-- A step keeps it: from IDLE only a new poll is busy, and it moves `LAST_POLL_MS` on. -/
theorem pollKeepsCache_step (u v : State) (h : step u = .next v) (hr : v.inp.rst = false)
    (hu : PollKeepsCache s u) : PollKeepsCache s v := by
  obtain ⟨hle, hcache⟩ := hu
  obtain ⟨-, hgrow⟩ := betweenResetsValidStaysAndLastPollGrows u v h hr
  refine ⟨hle.trans hgrow, fun hv hsame => ?_⟩
  have hulast : u.lastPollMs = s.lastPollMs := by
    rw [hsame] at hgrow
    exact BitVec.eq_of_toNat_eq (le_antisymm hgrow hle)
  by_cases hidle : u.fsm = .idle
  · obtain ⟨-, -, hstale, -, -, hnew, -⟩ := onlyAStaleReadLeavesIdle u v h hidle hv
    rw [hsame, ← hulast] at hnew
    omega
  · exact (hcache hidle hulast).trans (step_sameCache_of_busy h hr hidle hv)

/-- Over a run without a reset that ends while the poll of `s` still runs, nothing has touched its READ or the cache. -/
theorem sameCache_of_poll_running (ds : List TickIn) (hds : noReset ds) (hrun : runDraws ds s = .next u)
    (hbusy : u.fsm ≠ .idle) (hlast : u.lastPollMs = s.lastPollMs) : SameCache s u := by
  have hs : PollKeepsCache s s := ⟨le_rfl, fun _ _ => by constructor <;> rfl⟩
  obtain ⟨-, hcache⟩ : PollKeepsCache s u :=
    runDraws_preserves ds pollKeepsCache_withDraws pollKeepsCache_step hds hrun hs
  exact hcache hbusy hlast

/-! ### The tick that ends it -/

/-- The four codes of a failed poll (60_exceptions.md R190). -/
def Status.IsFailure (code : Status) : Prop :=
  code = .noResponse ∨ code = .handshakeTimeout ∨ code = .bitTimeout ∨ code = .checksumMismatch

/-- The two ends of a poll: `success` on a frame whose checksum passes, or `fail` with one of the four codes. FRAME and
CRIT are as the end of the bit phase left them. -/
inductive PollEnd (u : State) : State → Prop where
  | success (f : Frame) (hc : checksumOk f = true) :
      PollEnd u (success (frameByte f 0) (frameByte f 1) (frameByte f 2) (frameByte f 3)
        { u with frame := f, crit := false })
  | failure (code : Status) (f : Frame) (c : Bool) (hcode : code.IsFailure) :
      PollEnd u (failPoll code { u with frame := f, crit := c })

theorem PollEnd.failPoll (code : Status) (hcode : code.IsFailure) : PollEnd u (failPoll code u) :=
  .failure code u.frame u.crit hcode

/-- The end of the frame is an end of the poll, whatever the checksum. -/
theorem pollEnd_checkFrame (f : Frame) : PollEnd u (checkFrame f { u with frame := f, crit := false }) := by
  obtain ⟨hc, e⟩ | ⟨-, e⟩ := checkFrame_cases f { u with frame := f, crit := false } <;> rw [e]
  · exact .success f hc
  · exact .failure .checksumMismatch f false (by simp [Status.IsFailure])

/-- The rule of a busy state goes on with the poll or ends it in one of the two ways. -/
theorem stateRule_busy_or_pollEnd (hbusy : u.fsm ≠ .idle) (h : stateRule u = .next t) :
    t.fsm ≠ .idle ∨ PollEnd u t := by
  obtain ⟨hf, -, -⟩ | ⟨hf, -, -⟩ | ⟨hf, rfl⟩ | ⟨hf, rfl⟩ | ⟨hf, rfl⟩ | ⟨hf, rfl⟩ | ⟨hf, rfl⟩ | ⟨hf, rfl⟩ |
    ⟨hf, rfl⟩ := stateRule_cases u t h
  · exact absurd hf hbusy
  · exact absurd hf hbusy
  · left
    obtain ⟨-, e⟩ | ⟨-, e⟩ := startLowTick_cases u <;> simp [e, hbusy]
  · left
    obtain ⟨-, e⟩ | ⟨-, e⟩ := startHighTick_cases u <;> simp [e, hbusy]
  · obtain ⟨-, e⟩ | ⟨-, e⟩ := respCheckTick_cases u <;> rw [e]
    · exact .inr (.failPoll .noResponse (by simp [Status.IsFailure]))
    · simp
  · obtain ⟨-, e⟩ | ⟨-, -, e⟩ | ⟨-, -, e⟩ := preLowTick_cases u <;> rw [e]
    · simp
    · exact .inr (.failPoll .handshakeTimeout (by simp [Status.IsFailure]))
    · exact .inl hbusy
  · obtain ⟨-, e⟩ | ⟨-, -, e⟩ | ⟨-, -, e⟩ := preHighTick_cases u <;> rw [e]
    · simp
    · exact .inr (.failPoll .handshakeTimeout (by simp [Status.IsFailure]))
    · exact .inl hbusy
  · obtain ⟨-, e⟩ | ⟨-, -, e⟩ | ⟨-, -, e⟩ := bitLowTick_cases u <;> rw [e]
    · simp
    · exact .inr (.failPoll .bitTimeout (by simp [Status.IsFailure]))
    · exact .inl hbusy
  · obtain e | e | ⟨b, -, e⟩ | ⟨b, -, e⟩ := bitHighTick_outcomes u <;> rw [e]
    · exact .inl hbusy
    · exact .inr (.failPoll .bitTimeout (by simp [Status.IsFailure]))
    · simp
    · exact .inr (pollEnd_checkFrame (shiftIn u.frame b))

/-- The tick from a busy state to IDLE that is no reset ends the poll, from the sampled state. -/
theorem step_pollEnd (h : step u = .next t) (hr : (nextDraw u).rst = false) (hbusy : u.fsm ≠ .idle)
    (ht : t.fsm = .idle) : PollEnd (latch (nextDraw u) u) t := by
  obtain ⟨-, rfl⟩ | ⟨-, hrst, -⟩ | ⟨-, -, h⟩ := step_cases u t h
  · exact absurd ht hbusy
  · exact absurd (hr.symm.trans hrst) Bool.false_ne_true
  · exact (stateRule_busy_or_pollEnd (u := latch (nextDraw u) u) hbusy h).resolve_left (not_not_intro ht)

/-- What the last tick of a poll of kind `k` leaves, in the words of R135 to R137: the answer from the registers it
leaves, and the whole new reading or the old one. -/
theorem PollEnd.reading_and_answer {k : ReadKind} (h : PollEnd u t) (hk : u.pending = some k) :
    t.lastPollMs = u.lastPollMs ∧ t.pending = none ∧ t.out.rspValid = true ∧ t.out.rspErr = false ∧
    t.out.rspData = cachedWord k t ∧
    ((t.lastStatus = .ok ∧ t.valid = true ∧
        t.frame = frameOfBytes t.humInt t.humFrac t.tempInt t.tempFrac (frameByte t.frame 4) ∧
        (t.humInt.toNat + t.humFrac.toNat + t.tempInt.toNat + t.tempFrac.toNat) % 256 =
          (frameByte t.frame 4).toNat) ∨
      (t.lastStatus.IsFailure ∧ t.humInt = u.humInt ∧ t.humFrac = u.humFrac ∧ t.tempInt = u.tempInt ∧
        t.tempFrac = u.tempFrac ∧ t.valid = u.valid)) := by
  cases h with
  | success f hc =>
    rw [successWritesTheReadingAndAnswers _ _ _ _ k { u with frame := f, crit := false } hk]
    exact ⟨rfl, rfl, rfl, rfl, by cases k <;> rfl,
      .inl ⟨rfl, rfl, (frameOfBytes_frameByte f).symm, (checksumOk_iff f).mp hc⟩⟩
  | failure code f c hcode =>
    rw [failureKeepsTheCacheAndAnswers code k { u with frame := f, crit := c } hk]
    exact ⟨rfl, rfl, rfl, rfl, by cases k <;> rfl, .inr ⟨hcode, rfl, rfl, rfl, rfl, rfl⟩⟩

/-- Settles O55: while the poll runs it keeps its READ and the cache, and the tick that ends it is a `PollEnd`. -/
theorem aPollIsASuccessOrLeavesTheCache : Obligations.APollIsASuccessOrLeavesTheCache := by
  unfold Obligations.APollIsASuccessOrLeavesTheCache
  intro ds d k s u t _ _ hk hds hrun hbusy hlast hend ht
  obtain ⟨hds, hd⟩ := List.forall_mem_append.mp hds
  obtain ⟨hpending, hhi, hhf, hti, htf, hvalid⟩ := sameCache_of_poll_running ds hds hrun hbusy hlast
  have hpollEnd := step_pollEnd hend (hd d (List.mem_singleton_self d)) hbusy ht
  obtain ⟨hlast', hnone, hrsp, herr, hdata, hreading⟩ := hpollEnd.reading_and_answer (hpending.trans hk)
  rw [← hhi, ← hhf, ← hti, ← htf, ← hvalid]
  refine ⟨hlast'.trans hlast, hnone, hrsp, herr, ?_, hreading⟩
  cases k <;> exact hdata

end Sys2Proof.Machine
end

section
/-! PROOFS. A platform's runs (60_exceptions.md R200): every copy ticks by itself, a tick is admitted exactly where no
two copies poll after it, and so an admitted run is, copy by copy, the copy's own run. -/

namespace Sys2Proof.Machine

/-! ### One tick of every copy -/

/-- With one input record for each copy the copies answer next states, since no step ends a run. -/
theorem tickCopies_answers_next (now : Time) (is : List PinIn) (ss : List State) (h : is.length = ss.length) :
    ∃ ts, tickCopies now is ss = .next ts := by
  induction is generalizing ss with
  | nil =>
    obtain rfl := List.length_eq_zero_iff.mp h.symm
    exact ⟨[], rfl⟩
  | cons i is ih =>
    obtain ⟨s, ss, rfl⟩ := List.exists_cons_of_length_eq_add_one h.symm
    obtain ⟨t, ht⟩ := everyStepAnswersANextState (present (pinDraw now i) s)
    obtain ⟨ts, hts⟩ := ih ss (Nat.succ.inj h)
    exact ⟨t :: ts, by rw [tickCopies, ht, hts]⟩

/-- Input records and copies that do not pair up are no tick. -/
theorem tickCopies_of_length_ne (now : Time) (is : List PinIn) (ss : List State) (h : is.length ≠ ss.length) :
    tickCopies now is ss = .refused .notOneInputPerPin := by
  induction is generalizing ss with
  | nil =>
    cases ss with
    | nil => exact absurd rfl h
    | cons s ss => rfl
  | cons i is ih =>
    cases ss with
    | nil => rfl
    | cons s ss =>
      obtain ⟨t, ht⟩ := everyStepAnswersANextState (present (pinDraw now i) s)
      rw [tickCopies, ht, ih ss fun e => h (congrArg Nat.succ e)]

/-- Settles O51: the tick of the copies is a next state of each, copy by copy. -/
theorem platformCopiesDoNotInteract : Obligations.PlatformCopiesDoNotInteract := by
  unfold Obligations.PlatformCopiesDoNotInteract
  intro now ins p hlen
  obtain ⟨ts, hts⟩ := tickCopies_answers_next now ins p.pins hlen
  obtain ⟨-, hlen', hcopies⟩ := (tickCopies_next_iff now ins p.pins ts).mp hts
  exact ⟨ts, hts, hlen', hcopies⟩

/-! ### Which ticks are admitted -/

theorem polling_iff (s : State) : polling s = true ↔ s.fsm ≠ .idle := by
  simp only [polling, decide_eq_true_eq]

/-- A count of at most one means that no two places of the list hold what is counted. -/
theorem countP_le_one_iff_pairwise {α : Type} (f : α → Bool) (l : List α) :
    l.countP f ≤ 1 ↔ l.Pairwise fun a b => f a = true → ¬ f b = true := by
  induction l with
  | nil => simp
  | cons a l ih =>
    rw [List.pairwise_cons, ← ih]
    cases ha : f a
    · simp [List.countP_cons_of_neg, ha]
    · have hrest : l.countP f = 0 ↔ ∀ b ∈ l, ¬ f b = true := List.countP_eq_zero
      rw [List.countP_cons_of_pos ha]
      simp only [forall_const, ← hrest]
      omega

/-- A platform is admitted exactly if two places at which a copy polls are the same place. -/
theorem platformAdmitted_iff (ts : List State) :
    platformAdmitted ⟨ts⟩ = true ↔
      ∀ (j k : Nat) (s t : State), ts[j]? = some s → ts[k]? = some t → s.fsm ≠ .idle → t.fsm ≠ .idle → j = k := by
  simp only [platformAdmitted, decide_eq_true_eq, countP_le_one_iff_pairwise, polling_iff,
    List.pairwise_iff_getElem]
  constructor
  · intro hpair j k s t hj hk hs ht
    obtain ⟨hj', rfl⟩ := List.getElem?_eq_some_iff.mp hj
    obtain ⟨hk', rfl⟩ := List.getElem?_eq_some_iff.mp hk
    obtain hlt | e | hlt := lt_trichotomy j k
    · exact absurd ht (hpair j k hj' hk' hlt hs)
    · exact e
    · exact absurd hs (hpair k j hk' hj' hlt ht)
  · intro hplace j k hj hk hlt hs ht
    exact hlt.ne (hplace j k _ _ (List.getElem?_eq_getElem hj) (List.getElem?_eq_getElem hk) hs ht)

/-- Settles O59: a list of another length is no tick, and of the copies' next states `platformAdmitted` decides. -/
theorem twoPollsAtOnceAreNotAdmitted : Obligations.TwoPollsAtOnceAreNotAdmitted := by
  unfold Obligations.TwoPollsAtOnceAreNotAdmitted
  intro x p
  constructor
  · intro hlen
    rw [platformTick, tickCopies_of_length_ne x.nowUs x.pins p.pins hlen]
  intro ts hts
  constructor
  · rintro ⟨j, k, s, t, hne, hj, hk, hs, ht⟩
    have hadm : platformAdmitted ⟨ts⟩ = false := by
      rw [← Bool.not_eq_true, platformAdmitted_iff]
      exact fun hplace => hne (hplace j k s t hj hk hs ht)
    exact platformTick_of_concurrent x p ts hts hadm
  · intro hplace
    exact (platformTick_next_iff x p ⟨ts⟩).mpr ⟨hts, (platformAdmitted_iff ts).mpr hplace⟩

/-! ### Runs -/

/-- What an admitted tick is for the copy at pin `k`: the step of its own state on the draw it got. -/
theorem platformTick_copy {x : PlatformIn} {p q : Platform} {k : Nat} {s : State} (h : platformTick x p = .next q)
    (hs : p.pins[k]? = some s) :
    ∃ i t, x.pins[k]? = some i ∧ q.pins[k]? = some t ∧ step (present (pinDraw x.nowUs i) s) = .next t := by
  obtain ⟨hlen, -, hcopies⟩ := (tickCopies_next_iff _ _ _ _).mp ((platformTick_next_iff x p q).mp h).1
  have hk : k < x.pins.length := by
    rw [hlen]
    exact (List.getElem?_eq_some_iff.mp hs).1
  have hi : x.pins[k]? = some x.pins[k] := List.getElem?_eq_getElem hk
  obtain ⟨t, ht, hstep⟩ := hcopies k _ s hi hs
  exact ⟨_, t, hi, ht, hstep⟩

/-- Every tick of a run is admitted, so what comes at its end is. -/
theorem runPlatform_admitted {xs : List PlatformIn} {p q : Platform} (hp : platformAdmitted p = true)
    (h : runPlatform xs p = .next q) : platformAdmitted q = true := by
  induction xs generalizing p with
  | nil =>
    cases h
    exact hp
  | cons x xs ih =>
    obtain ⟨r, hr, hrest⟩ := (runPlatform_cons_iff x xs p q).mp h
    exact ih ((platformTick_next_iff x p r).mp hr).2 hrest

theorem runPlatform_length {xs : List PlatformIn} {p q : Platform} (h : runPlatform xs p = .next q) :
    q.pins.length = p.pins.length := by
  induction xs generalizing p with
  | nil =>
    cases h
    rfl
  | cons x xs ih =>
    obtain ⟨r, hr, hrest⟩ := (runPlatform_cons_iff x xs p q).mp h
    exact (ih hrest).trans (platformTick_length x p r hr)

/-- The copy at pin `k` gets one draw a tick, and its end state is that of its own run over them: a run of the platform
hands each copy its own draws, and a copy's own schedule is neither read nor written. -/
theorem runPlatform_copy {xs : List PlatformIn} {p q : Platform} {k : Nat} {s : State}
    (h : runPlatform xs p = .next q) (hs : p.pins[k]? = some s) :
    (drawsOfPin k xs).length = xs.length ∧
    ∃ t, q.pins[k]? = some t ∧ t.draws = s.draws ∧ runDraws (drawsOfPin k xs) s = .next { t with draws := [] } := by
  induction xs generalizing p s with
  | nil =>
    cases h
    exact ⟨rfl, s, hs, rfl, runDraws_nil s⟩
  | cons x xs ih =>
    obtain ⟨r, hr, hrest⟩ := (runPlatform_cons_iff x xs p q).mp h
    obtain ⟨i, u, hi, hu, hstep⟩ := platformTick_copy hr hs
    obtain ⟨hlen, t, ht, hdraws, hrun⟩ := ih hrest hu
    have hudraws : u.draws = s.draws := step_draws _ _ hstep
    rw [drawsOfPin_cons_of_some k x xs i hi]
    exact ⟨congrArg Nat.succ hlen, t, ht, hdraws.trans hudraws, runDraws_cons_of_step hstep hrun⟩

/-- Settles O60, by induction on the ticks of the run for each of its three parts. -/
theorem anAdmittedPlatformRunIsEachCopysOwnRun : Obligations.AnAdmittedPlatformRunIsEachCopysOwnRun := by
  unfold Obligations.AnAdmittedPlatformRunIsEachCopysOwnRun
  intro xs p q hp hrun
  exact ⟨runPlatform_admitted hp hrun, fun hwf => (runPlatform_length hrun).trans hwf,
    fun _ _ hs => runPlatform_copy hrun hs⟩

end Sys2Proof.Machine
end

section
/-! PROOFS. The time premises (60_exceptions.md R196): the ticks that break them set the mark and nothing else, the time
registers never lie in the future as long as it is not set, and the sums of the deadlines fit. -/

namespace Sys2Proof.Machine

variable {s t u : State}

/-! ### The mark `time_refused` -/

/-- Settles O16: the check of the time premises stands in front of `tick`. -/
theorem refusedTickChangesNoRegister : Obligations.RefusedTickChangesNoRegister := by
  unfold Obligations.RefusedTickChangesNoRegister
  intro d s hbad
  have hrefused : timeAdmissible (present d s).cfg (present d s).inp.nowUs d.nowUs = false :=
    (timeAdmissible_eq_false_iff _ _ _).mpr hbad
  rw [step_present, tickWith_of_refused d (present d s) hrefused, latch_present]
  rfl

/-- No rule touches the mark. -/
theorem RuleMove.timeRefused_eq (hm : RuleMove u t) : t.timeRefused = u.timeRefused := by
  cases hm <;> simp

/-- The mark after a step: a refused tick sets it, a reset and every rule leave it. -/
theorem step_timeRefused (h : step s = .next t) :
    t.timeRefused = (s.timeRefused || !timeAdmissible s.cfg s.inp.nowUs t.inp.nowUs) := by
  obtain ⟨-, hinp, -⟩ := everyTickSamplesItsPorts s t h
  rw [hinp]
  obtain ⟨ha, rfl⟩ | ⟨ha, -, rfl⟩ | ⟨ha, -, hrule⟩ := step_cases s t h
  · simp [ha]
  · simp [ha]
  · simp [ha, (stateRule_move hrule).timeRefused_eq]

/-- Settles O17: the mark is set by the ticks that are not admissible, and these break premise (a) or (b). -/
theorem timeRefusedMarkIsSticky : Obligations.TimeRefusedMarkIsSticky := by
  unfold Obligations.TimeRefusedMarkIsSticky
  intro s t h
  rw [step_timeRefused h, Bool.or_eq_true, Bool.not_eq_true', timeAdmissible_eq_false_iff]

/-! ### The time registers -/

theorem nowMs_mono {now now' : Time} (h : now.toNat ≤ now'.toNat) : nowMs now ≤ nowMs now' :=
  Nat.div_le_div_right h

/-- A move leaves `T_MARK` or sets it to the time of the tick. -/
theorem RuleMove.tMark_cases (hm : RuleMove u t) : t.tMark = u.tMark ∨ t.tMark = u.inp.nowUs := by
  cases hm <;> simp

/-- A move of a rule puts no time register ahead of the tick's time. -/
theorem RuleMove.keeps_timeInv (hm : RuleMove u t) (h : TimeInv u) : TimeInv t := by
  intro hobs
  obtain ⟨hmark, hpoll⟩ := h (hm.timeRefused_eq.symm.trans hobs)
  obtain ⟨-, hinp, -⟩ := hm.keeps_sampled
  rw [hinp]
  constructor
  · obtain e | e := hm.tMark_cases <;> rw [e]
    exact hmark
  · obtain e | ⟨-, -, e, -⟩ := hm.lastPollMs_cases
    · rw [e]
      exact hpoll
    · exact e.le

/-- Sampling a tick whose time is not before the last one's keeps the invariants. -/
theorem timeInv_latch {d : TickIn} (h : TimeInv s) (hmono : s.inp.nowUs.toNat ≤ d.nowUs.toNat) :
    TimeInv (latch d s) := by
  intro hobs
  obtain ⟨hmark, hpoll⟩ := h hobs
  exact ⟨hmark.trans hmono, hpoll.trans (nowMs_mono hmono)⟩

/-- A refused tick sets the mark, and then the invariants ask nothing. -/
theorem timeInv_refuseTime (s : State) : TimeInv (refuseTime s) := fun hobs => absurd hobs (by simp [Observable])

/-- A reset sets both registers to 0. -/
theorem timeInv_resetRegisters (s : State) : TimeInv (resetRegisters s) := fun _ => by simp

/-- Settles O35: an admitted tick is not before the last one, and sampling, a reset and every move keep the
invariants. -/
theorem everyStepKeepsTheTimeInvariant : Obligations.EveryStepKeepsTheTimeInvariant := by
  unfold Obligations.EveryStepKeepsTheTimeInvariant
  intro s t hs h
  obtain ⟨-, rfl⟩ | ⟨-, -, rfl⟩ | ⟨ha, -, hrule⟩ := step_cases s t h
  · exact timeInv_refuseTime _
  · exact timeInv_resetRegisters _
  · obtain ⟨hmono, -⟩ := (timeAdmissible_iff _ _ _).mp ha
    exact (stateRule_move hrule).keeps_timeInv (timeInv_latch hs hmono)

/-- Settles O36: premise (b) bounds the longer deadline, and `Config.wf` says which one that is. -/
theorem storedDeadlinesDoNotWrap : Obligations.StoredDeadlinesDoNotWrap := by
  unfold Obligations.StoredDeadlinesDoNotWrap
  intro d s hwf hd
  have hle : s.cfg.tBitTimeoutUs ≤ s.cfg.tRespDeadlineUs := of_decide_eq_true hwf
  have hfits := hd.no_wrap
  exact ⟨toNat_deadlineAfter _ _ hfits, toNat_deadlineAfter _ _ (by omega)⟩

end Sys2Proof.Machine
end

section
/-! PROOFS. A poll never hangs (60_exceptions.md R197, R198): no sensor is answered by NO_RESPONSE, and each busy state
is left once its time is up. -/

namespace Sys2Proof.Machine

variable {s : State}

/-! ### No sensor on the line -/

/-- The line that nobody drives is HIGH by its pull-up, from the response check on. -/
theorem lineLevel_of_released (h : RegisterInv s) (hf : readsLine s.fsm = true) : lineLevel s false = some true := by
  have hoe : s.pinOe = false := by
    rw [← Bool.not_eq_true, h.driven_iff_start]
    rintro (e | e) <;> simp [e, readsLine] at hf
  simp only [lineLevel, hoe, h.pullup_on]

/-- Settles O49: the released line is HIGH, and the response check fails on HIGH. -/
theorem noSensorMeansNoResponse : Obligations.NoSensorMeansNoResponse := by
  unfold Obligations.NoSensorMeansNoResponse
  intro d s hinv hf hd hline
  have hlevel : lineLevel s false = some true := lineLevel_of_released hinv (by rw [hf]; rfl)
  have hdi : d.di = true := Option.some.inj (hline.symm.trans hlevel)
  rw [respCheckTakesOneSample d s hf hd, if_pos hdi]

/-! ### The time of a state is up -/

theorem startLowTick_leaves (h : s.tMark.toNat + s.cfg.tStartUs ≤ s.inp.nowUs.toNat) :
    (startLowTick s).fsm ≠ .startLow := by
  obtain ⟨-, e⟩ | ⟨hearly, -⟩ := startLowTick_cases s
  · simp [e]
  · omega

theorem startHighTick_leaves (h : s.tMark.toNat + s.cfg.tReleaseUs ≤ s.inp.nowUs.toNat) :
    (startHighTick s).fsm ≠ .startHigh := by
  obtain ⟨-, e⟩ | ⟨hearly, -⟩ := startHighTick_cases s
  · simp [e]
  · omega

theorem respCheckTick_leaves : (respCheckTick s).fsm ≠ .respCheck := by
  obtain ⟨-, e⟩ | ⟨-, e⟩ := respCheckTick_cases s <;> simp [e]

theorem preLowTick_leaves (h : s.deadline.toNat < s.inp.nowUs.toNat) : (preLowTick s).fsm ≠ .preLow := by
  obtain ⟨-, e⟩ | ⟨-, -, e⟩ | ⟨-, hearly, -⟩ := preLowTick_cases s
  · simp [e]
  · simp [e]
  · omega

theorem preHighTick_leaves (h : s.deadline.toNat < s.inp.nowUs.toNat) : (preHighTick s).fsm ≠ .preHigh := by
  obtain ⟨-, e⟩ | ⟨-, -, e⟩ | ⟨-, hearly, -⟩ := preHighTick_cases s
  · simp [e]
  · simp [e]
  · omega

theorem bitLowTick_leaves (h : s.deadline.toNat < s.inp.nowUs.toNat) : (bitLowTick s).fsm ≠ .bitLow := by
  obtain ⟨-, e⟩ | ⟨-, -, e⟩ | ⟨-, hearly, -⟩ := bitLowTick_cases s
  · simp [e]
  · simp [e]
  · omega

@[simp] theorem checkFrame_fsm (f : Frame) (s : State) : (checkFrame f s).fsm = .idle := by
  obtain ⟨-, e⟩ | ⟨-, e⟩ := checkFrame_cases f s <;> simp [e]

/-- An accepted bit goes on to the next cell or to IDLE. -/
theorem acceptBit_leaves (b : Bool) (s : State) : (acceptBit b s).fsm ≠ .bitHigh := by
  obtain ⟨-, e⟩ | ⟨-, e⟩ := acceptBit_cases b s <;> simp [e]

/-- Under either last-bit policy a zero result is no reason to stay. -/
theorem zeroResult_leaves (s : State) : (zeroResult s).fsm ≠ .bitHigh := by
  obtain ⟨-, -, e⟩ | ⟨-, e⟩ := zeroResult_cases s
  · rw [e]
    exact acceptBit_leaves true s
  · simp [e]

theorem bitHighTick_leaves (h : s.tMark.toNat + s.cfg.tBitTimeoutUs < s.inp.nowUs.toNat) :
    (bitHighTick s).fsm ≠ .bitHigh := by
  obtain ⟨-, hearly, -⟩ | ⟨-, e⟩ | ⟨-, -, hearly, -⟩ := bitHighTick_cases s
  · omega
  · rw [e]
    exact zeroResult_leaves s
  · omega

/-- Settles O48: an ordinary tick runs the rule of its state, and each rule leaves its state once the time is up. -/
theorem everyBusyStateIsLeftWhenItsTimeIsUp : Obligations.EveryBusyStateIsLeftWhenItsTimeIsUp := by
  unfold Obligations.EveryBusyStateIsLeftWhenItsTimeIsUp
  intro d s hd hup
  rw [step_present_of_ordinary d s hd, ← sampled_fsm d s]
  obtain ⟨hf, hup⟩ | ⟨hf, hup⟩ | hf | ⟨hf | hf | hf, hup⟩ | ⟨hf, hup⟩ := hup <;>
    rw [← sampled_fsm d s] at hf <;> rw [hf]
  · exact ⟨_, stateRule_of_startLow hf, startLowTick_leaves hup⟩
  · exact ⟨_, stateRule_of_startHigh hf, startHighTick_leaves hup⟩
  · exact ⟨_, stateRule_of_respCheck hf, respCheckTick_leaves⟩
  · exact ⟨_, stateRule_of_preLow hf, preLowTick_leaves hup⟩
  · exact ⟨_, stateRule_of_preHigh hf, preHighTick_leaves hup⟩
  · exact ⟨_, stateRule_of_bitLow hf, bitLowTick_leaves hup⟩
  · exact ⟨_, stateRule_of_bitHigh hf, bitHighTick_leaves hup⟩

end Sys2Proof.Machine
end

section
/-! PROOFS. The step of a scheduled tick, by what the tick is, and the induction over a run of them. -/

namespace Sys2Proof.Machine

variable {d : TickIn} {s t u v : State}

/-- The three things the tick `d` can be: refused, a reset, or ordinary, and then the rule of the state answers. -/
theorem step_present_cases (h : step (present d u) = .next v) :
    v = refuseTime (latch d (present d u)) ∨ (d.rst = true ∧ v = resetRegisters (latch d (present d u))) ∨
    (OrdinaryTick d u ∧ stateRule (sampled d u) = .next v) := by
  obtain ⟨-, e⟩ | ⟨-, hr, e⟩ | ⟨ha, hr, hrule⟩ := step_cases (present d u) v h
  · exact .inl e
  · exact .inr (.inl ⟨hr, e⟩)
  · obtain ⟨hmono, hfits⟩ := (timeAdmissible_iff _ _ _).mp ha
    have hd : OrdinaryTick d u := ⟨hr, hmono, hfits⟩
    exact .inr (.inr ⟨hd, (step_present_of_ordinary d u hd).symm.trans h⟩)

/-- A property of the ticks still to come and the state reached, which scheduling does not break and each tick hands on,
holds at the end of a run. -/
theorem runDraws_induct {P : List TickIn → State → Prop}
    (hsched : ∀ (ds es : List TickIn) (u : State), P ds u → P ds { u with draws := es })
    (hstep : ∀ (d : TickIn) (ds : List TickIn) (u v : State),
      P (d :: ds) u → step (present d u) = .next v → P ds v)
    (ds : List TickIn) (hrun : runDraws ds s = .next t) (hs : P ds s) : t.draws = [] ∧ P [] t := by
  induction ds generalizing s with
  | nil =>
    rw [runDraws_nil] at hrun
    cases hrun
    exact ⟨rfl, hsched [] [] s hs⟩
  | cons d ds ih =>
    obtain ⟨u, hu, hrest⟩ := (runDraws_cons_iff d ds s t).mp hrun
    exact ih hrest (hstep d ds _ u (hsched (d :: ds) ds s hs) hu)

end Sys2Proof.Machine
end

section
/-! PROOFS. The reset tick (70_reset_and_hazards.md R220 to R222, R225): what it leaves, and the runs after it, in which
nothing happens until the host requests something, and no poll starts until the first interval is over. -/

namespace Sys2Proof.Machine

variable {c : Config} {d : TickIn} {s t u v : State}

/-! ### The tick itself -/

/-- A reset tick that keeps the time premises resets the registers. -/
theorem step_present_of_reset (hr : d.rst = true) (hmono : s.inp.nowUs.toNat ≤ d.nowUs.toNat)
    (hfits : d.nowUs.toNat + s.cfg.tRespDeadlineUs < 2 ^ 64) :
    step (present d s) = .next (resetRegisters (latch d (present d s))) :=
  tickWith_of_reset d (present d s) ((timeAdmissible_iff _ _ _).mpr ⟨hmono, hfits⟩) hr

/-- Settles O14: sampling a reset tick leaves `req_ready` 0 too, and the reset writes the rest. -/
theorem resetTickSetsEveryRegister : Obligations.ResetTickSetsEveryRegister := by
  unfold Obligations.ResetTickSetsEveryRegister
  intro d s hr hmono hfits
  rw [step_present_of_reset hr hmono hfits, latch_present]
  simp only [resetRegisters, latch, hr, Bool.not_true, Bool.false_and]
  rfl

/-- Settles O15: the values that a reset tick writes are those of `State.reset`. -/
theorem powerOnIsAResetTick : Obligations.PowerOnIsAResetTick := by
  unfold Obligations.PowerOnIsAResetTick
  intro d s hr hmono hfits
  exact resetTickSetsEveryRegister d s hr hmono hfits

/-! ### Without a request (R222) -/

/-- Every register of `u` holds its reset value, under the parameters `c`. -/
def AtReset (c : Config) (u : State) : Prop :=
  ∃ refused inp out draws tickNo, u = { State.reset with
    cfg := c, timeRefused := refused, inp := inp, out := out, draws := draws, tickNo := tickNo }

theorem atReset_resetRegisters (h : u.cfg = c) : AtReset c (resetRegisters u) :=
  ⟨u.timeRefused, u.inp, u.out, u.draws, u.tickNo, by rw [← h]; rfl⟩

/-- A tick without a request answers nothing and leaves a reset block as it is. -/
theorem atReset_step (hv : d.reqValid = false) (hu : AtReset c u) (h : step (present d u) = .next v) :
    AtReset c v ∧ v.out.rspValid = false := by
  obtain ⟨refused, inp, out, draws, tickNo, rfl⟩ := hu
  obtain rfl | ⟨-, rfl⟩ | ⟨hd, -⟩ := step_present_cases h
  · exact ⟨⟨_, _, _, _, _, rfl⟩, rfl⟩
  · exact ⟨atReset_resetRegisters rfl, rfl⟩
  · obtain ⟨hidle, -⟩ := idleTickRunsTheRequestedCommand d _ rfl hd
    cases h.symm.trans (hidle hv)
    exact ⟨⟨_, _, _, _, _, rfl⟩, rfl⟩

/-- What a run without a request keeps: no request is to come, every register is at its reset value, no response. -/
def AbandonedRun (c : Config) (ds : List TickIn) (u : State) : Prop :=
  (∀ e ∈ ds, e.reqValid = false) ∧ AtReset c u ∧ u.out.rspValid = false

theorem abandonedRun_withDraws (ds es : List TickIn) (u : State) (h : AbandonedRun c ds u) :
    AbandonedRun c ds { u with draws := es } := by
  obtain ⟨hquiet, ⟨refused, inp, out, draws, tickNo, rfl⟩, hsilent⟩ := h
  exact ⟨hquiet, ⟨refused, inp, out, es, tickNo, rfl⟩, hsilent⟩

theorem abandonedRun_step (d : TickIn) (ds : List TickIn) (u v : State) (hu : AbandonedRun c (d :: ds) u)
    (h : step (present d u) = .next v) : AbandonedRun c ds v := by
  obtain ⟨hquiet, hreset, -⟩ := hu
  obtain ⟨hd, hds⟩ := List.forall_mem_cons.mp hquiet
  exact ⟨hds, atReset_step hd hreset h⟩

/-- Settles O53: the reset tick leaves the block `AtReset` and silent, and each tick without a request keeps that. -/
theorem aResetAbandonsThePoll : Obligations.AResetAbandonsThePoll := by
  unfold Obligations.AResetAbandonsThePoll
  intro d ds s r t hr hmono hfits hreset hquiet hrun
  cases (step_present_of_reset hr hmono hfits).symm.trans hreset
  have hstart : AbandonedRun s.cfg ds (resetRegisters (latch d (present d s))) :=
    ⟨hquiet, atReset_resetRegisters rfl, rfl⟩
  obtain ⟨hdraws, -, ⟨refused, inp, out, draws, tickNo, rfl⟩, hsilent⟩ :=
    runDraws_induct abandonedRun_withDraws abandonedRun_step ds hrun hstart
  cases hdraws
  exact ⟨hsilent, rfl⟩

/-! ### Before the first interval is over (R225) -/

/-- No poll has started since the reset: the block is idle, the line released, and the cache empty. -/
structure Unpolled (c : Config) (u : State) : Prop where
  cfg : u.cfg = c
  idle : u.fsm = .idle
  released : u.pinOe = false
  lastPoll_zero : u.lastPollMs = 0
  not_valid : u.valid = false
  cachedWord_zero : ∀ k, cachedWord k u = 0x0000#16

/-- A READ requested on the last tick, if that was no reset and no tick was refused so far, is answered `0x0000`. -/
def ReadAnsweredZero (u : State) : Prop :=
  u.timeRefused = false → u.inp.rst = false → u.inp.reqValid = true →
    decode u.inp.reqCmd = .readTemperature ∨ decode u.inp.reqCmd = .readHumidity →
    u.out.rspValid = true ∧ u.out.rspErr = false ∧ u.out.rspData = 0x0000#16

theorem readingWord_zero : readingWord 0 0 = 0x0000#16 := by decide

theorem unpolled_resetRegisters (h : u.cfg = c) : Unpolled c (resetRegisters u) :=
  ⟨h, rfl, rfl, rfl, rfl, by rintro (_ | _) <;> exact readingWord_zero⟩

theorem unpolled_sampled (h : Unpolled c u) : Unpolled c (sampled d u) :=
  ⟨h.cfg, h.idle, h.released, h.lastPoll_zero, h.not_valid, h.cachedWord_zero⟩

theorem unpolled_respond (data : RspWord) (err : Bool) (h : Unpolled c u) : Unpolled c (respond data err u) :=
  ⟨h.cfg, h.idle, h.released, h.lastPoll_zero, h.not_valid, h.cachedWord_zero⟩

/-- Until the interval is over a READ answers the empty cache. -/
theorem readCommand_of_unpolled (k : ReadKind) (h : Unpolled c u)
    (htime : u.inp.nowUs.toNat / 1000 ≤ c.minPollIntervalMs) : readCommand k u = respond 0x0000#16 false u := by
  have hfresh : ¬ u.lastPollMs.toNat + u.cfg.minPollIntervalMs < u.inp.nowUs.toNat / 1000 := by
    rw [h.cfg]; omega
  rw [readCommand_of_fresh k hfresh, h.cachedWord_zero k]

/-- Until the interval is over a command starts no poll. -/
theorem unpolled_exec {i : Instr} (h : Unpolled c u) (htime : u.inp.nowUs.toNat / 1000 ≤ c.minPollIntervalMs)
    (hx : exec i u = .next v) : Unpolled c v := by
  obtain ⟨k, -, hs, -⟩ | ⟨data, -, rfl⟩ | ⟨-, rfl⟩ := exec_cases i u v hx
  · have hlate := (isStale_iff u).mp hs
    rw [h.cfg] at hlate
    omega
  · exact unpolled_respond _ _ h
  · exact unpolled_respond _ _ h

/-- Until the interval is over each tick leaves the block unpolled, and answers a READ at once. -/
theorem unpolled_step (hu : Unpolled c u) (htime : d.nowUs.toNat / 1000 ≤ c.minPollIntervalMs)
    (h : step (present d u) = .next v) : Unpolled c v ∧ ReadAnsweredZero v := by
  obtain rfl | ⟨hr, rfl⟩ | ⟨hd, -⟩ := step_present_cases h
  · exact ⟨⟨hu.cfg, hu.idle, hu.released, hu.lastPoll_zero, hu.not_valid, hu.cachedWord_zero⟩,
      fun hmark => by simp at hmark⟩
  · exact ⟨unpolled_resetRegisters hu.cfg, fun _ hrst => by simp [hr] at hrst⟩
  · have hl : Unpolled c (sampled d u) := unpolled_sampled hu
    rw [step_present_of_idle hu.idle hd] at h
    cases hv : d.reqValid
    · cases (idleTick_of_no_request (s := sampled d u) hv).symm.trans h
      exact ⟨hl, fun _ _ hreq => by simp [hv] at hreq⟩
    · have hx := (idleTick_of_request (s := sampled d u) hv).symm.trans h
      refine ⟨unpolled_exec hl htime hx, fun _ _ _ hread => ?_⟩
      have hinp : v.inp = d := by
        obtain ⟨k, -, -, rfl⟩ | ⟨data, -, rfl⟩ | ⟨-, rfl⟩ := exec_cases _ _ v hx <;> rfl
      rw [hinp] at hread
      obtain hi | hi := hread <;> rw [sampled_inp, hi] at hx <;> cases hx <;>
        rw [readCommand_of_unpolled _ hl htime] <;> exact ⟨rfl, rfl, rfl⟩

/-- What a run within the first interval keeps: the ticks to come are in it, no poll has started, a READ is answered. -/
def EarlyRun (c : Config) (ds : List TickIn) (u : State) : Prop :=
  (∀ e ∈ ds, e.nowUs.toNat / 1000 ≤ c.minPollIntervalMs) ∧ Unpolled c u ∧ ReadAnsweredZero u

theorem earlyRun_withDraws (ds es : List TickIn) (u : State) (h : EarlyRun c ds u) :
    EarlyRun c ds { u with draws := es } := by
  obtain ⟨hearly, ⟨hcfg, hidle, hpin, hlast, hvalid, hcache⟩, hanswer⟩ := h
  exact ⟨hearly, ⟨hcfg, hidle, hpin, hlast, hvalid, hcache⟩, hanswer⟩

theorem earlyRun_step (d : TickIn) (ds : List TickIn) (u v : State) (hu : EarlyRun c (d :: ds) u)
    (h : step (present d u) = .next v) : EarlyRun c ds v := by
  obtain ⟨hearly, hunpolled, -⟩ := hu
  obtain ⟨hd, hds⟩ := List.forall_mem_cons.mp hearly
  exact ⟨hds, unpolled_step hunpolled hd h⟩

/-- Settles O52: the reset tick leaves the block `Unpolled`, and each tick of the interval keeps that and answers. -/
theorem noPollBeforeTheFirstInterval : Obligations.NoPollBeforeTheFirstInterval := by
  unfold Obligations.NoPollBeforeTheFirstInterval
  intro d ds s r t hr hmono hfits hreset hearly hrun
  cases (step_present_of_reset hr hmono hfits).symm.trans hreset
  have hstart : EarlyRun s.cfg ds (resetRegisters (latch d (present d s))) :=
    ⟨hearly, unpolled_resetRegisters rfl, fun _ hrst => by simp [hr] at hrst⟩
  obtain ⟨-, -, hunpolled, hanswer⟩ := runDraws_induct earlyRun_withDraws earlyRun_step ds hrun hstart
  exact ⟨hunpolled.idle, hunpolled.released, hunpolled.lastPoll_zero, hunpolled.not_valid, hanswer⟩

end Sys2Proof.Machine
end

section
/-! PROOFS. The margin between a pulse and the threshold (70_reset_and_hazards.md R226). -/

namespace Sys2Proof.Machine

/-- Settles O50: under GT a pulse is a 1 exactly if it is wider than the threshold, and the margin is wider than the
measurement's error. -/
theorem classificationHasItsMargins : Obligations.ClassificationHasItsMargins := by
  unfold Obligations.ClassificationHasItsMargins
  intro c T W w hgt hw hW
  have hclass : classify c w = true ↔ c.tThresholdUs < w := by
    rw [comparatorUsesTheThreshold c w, hgt]
    simp
  refine ⟨fun hzero => ?_, fun hone => hclass.mpr (by omega)⟩
  rw [← Bool.not_eq_true, hclass]
  omega

end Sys2Proof.Machine
end

section
/-! PROOFS. The worst case of a poll (70_reset_and_hazards.md R232): a bound on the time of each FSM state, from the
guards by which the states are left, summed over the start signal, the preamble and the forty cells. -/

namespace Sys2Proof.Machine

variable {B T n : Nat} {d : TickIn} {s t u v : State}

/-! ### How late each state can be -/

/-- The latest time at which bit cell `i` of a poll begins, if the READ was accepted at `B` and ticks are at most `T`
apart. A cell that is not the last takes at most 200 + `T` for its LOW and 200 for its HIGH. -/
def latestCellStart (B T i : Nat) : Nat := B + 518038 + 5 * T + i * (400 + T)

theorem latestCellStart_zero (B T : Nat) : latestCellStart B T 0 = B + 518038 + 5 * T := by
  simp [latestCellStart]

theorem latestCellStart_succ (B T i : Nat) : latestCellStart B T (i + 1) = latestCellStart B T i + 400 + T := by
  unfold latestCellStart
  ring

/-- Bit 39 is the last to begin. -/
theorem latestCellStart_le (B T : Nat) {i : Nat} (hi : i < 40) : latestCellStart B T i ≤ B + 533638 + 44 * T := by
  have hmul : i * (400 + T) ≤ 39 * (400 + T) := Nat.mul_le_mul_right _ (by omega)
  unfold latestCellStart
  omega

/-- Under the defaults, a poll accepted at `B` that is in the state of `u` after a tick at `n` is no later than the
phases of R232 before it allow. -/
def OnSchedule (B T n : Nat) (u : State) : Prop :=
  match u.fsm with
  | .idle => True
  | .startLow => u.tMark.toNat ≤ B ∧ n < u.tMark.toNat + 18000
  | .startHigh => u.tMark.toNat ≤ B + 17999 + T ∧ n < u.tMark.toNat + 40
  | .respCheck => n ≤ B + 18038 + 2 * T
  | .preLow => u.deadline.toNat ≤ B + 518038 + 3 * T ∧ n ≤ u.deadline.toNat
  | .preHigh => u.deadline.toNat ≤ B + 518038 + 3 * T ∧ n ≤ u.deadline.toNat + T
  | .bitLow => u.bitIdx.toNat < 40 ∧ u.deadline.toNat ≤ latestCellStart B T u.bitIdx.toNat + 200 ∧
      n ≤ u.deadline.toNat
  | .bitHigh => u.bitIdx.toNat < 40 ∧ u.tMark.toNat ≤ latestCellStart B T u.bitIdx.toNat + 200 + T ∧
      n ≤ u.tMark.toNat + 200

theorem onSchedule_of_idle (hf : u.fsm = .idle) : OnSchedule B T n u := by
  simp only [OnSchedule, hf]

/-- The tick after a busy state on schedule comes within the sum of the phases. -/
theorem onSchedule_next_le (h : OnSchedule B T n u) (hbusy : u.fsm ≠ .idle) :
    n + T ≤ B + 534038 + 46 * T := by
  unfold OnSchedule at h
  cases hf : u.fsm <;> simp only [hf] at h
  case idle => exact absurd hf hbusy
  case bitLow =>
    obtain ⟨hi, hdl, hn⟩ := h
    have hcell := latestCellStart_le B T hi
    omega
  case bitHigh =>
    obtain ⟨hi, hmark, hn⟩ := h
    have hcell := latestCellStart_le B T hi
    omega
  all_goals omega

/-! ### The rules keep the schedule -/

section
variable (h : OnSchedule B T n u)
include h

theorem onSchedule_startLowTick (hc : u.cfg = Config.hardware) (hT : u.inp.nowUs.toNat ≤ n + T)
    (hf : u.fsm = .startLow) : OnSchedule B T u.inp.nowUs.toNat (startLowTick u) := by
  have hstart : u.cfg.tStartUs = 18000 := by rw [hc]; rfl
  simp only [OnSchedule, hf] at h
  obtain ⟨-, e⟩ | ⟨hearly, e⟩ := startLowTick_cases u <;> rw [e]
  · simp only [OnSchedule]
    omega
  · simp only [OnSchedule, hf]
    omega

theorem onSchedule_startHighTick (hc : u.cfg = Config.hardware) (hT : u.inp.nowUs.toNat ≤ n + T)
    (hf : u.fsm = .startHigh) : OnSchedule B T u.inp.nowUs.toNat (startHighTick u) := by
  have hrelease : u.cfg.tReleaseUs = 40 := by rw [hc]; rfl
  simp only [OnSchedule, hf] at h
  obtain ⟨-, e⟩ | ⟨hearly, e⟩ := startHighTick_cases u <;> rw [e]
  · simp only [OnSchedule]
    omega
  · simp only [OnSchedule, hf]
    omega

theorem onSchedule_respCheckTick (hc : u.cfg = Config.hardware) (hT : u.inp.nowUs.toNat ≤ n + T)
    (hf : u.fsm = .respCheck) (hfits : u.inp.nowUs.toNat + 500000 < 2 ^ 64) :
    OnSchedule B T u.inp.nowUs.toNat (respCheckTick u) := by
  have hresp : u.cfg.tRespDeadlineUs = 500000 := by rw [hc]; rfl
  simp only [OnSchedule, hf] at h
  obtain ⟨-, e⟩ | ⟨-, e⟩ := respCheckTick_cases u <;> rw [e]
  · exact onSchedule_of_idle rfl
  · simp only [OnSchedule, hresp, toNat_deadlineAfter _ _ hfits]
    omega

/-- The level is tested before the deadline: the rise may be seen on the first tick past it. -/
theorem onSchedule_preLowTick (hT : u.inp.nowUs.toNat ≤ n + T) (hf : u.fsm = .preLow) :
    OnSchedule B T u.inp.nowUs.toNat (preLowTick u) := by
  simp only [OnSchedule, hf] at h
  obtain ⟨-, e⟩ | ⟨-, -, e⟩ | ⟨-, hin, e⟩ := preLowTick_cases u <;> rw [e]
  · simp only [OnSchedule]
    omega
  · exact onSchedule_of_idle rfl
  · simp only [OnSchedule, hf]
    omega

theorem onSchedule_preHighTick (hc : u.cfg = Config.hardware) (hT : u.inp.nowUs.toNat ≤ n + T) (hf : u.fsm = .preHigh)
    (hfits : u.inp.nowUs.toNat + 500000 < 2 ^ 64) : OnSchedule B T u.inp.nowUs.toNat (preHighTick u) := by
  have hbit : u.cfg.tBitTimeoutUs = 200 := by rw [hc]; rfl
  have hdl : (deadlineAfter u.inp.nowUs 200).toNat = u.inp.nowUs.toNat + 200 := toNat_deadlineAfter _ _ (by omega)
  simp only [OnSchedule, hf] at h
  obtain ⟨-, e⟩ | ⟨-, -, e⟩ | ⟨-, hin, e⟩ := preHighTick_cases u <;> rw [e]
  · have hzero : (0 : BitVec 6).toNat = 0 := rfl
    simp only [OnSchedule, hbit, hdl, hzero, latestCellStart_zero]
    omega
  · exact onSchedule_of_idle rfl
  · simp only [OnSchedule, hf]
    omega

theorem onSchedule_bitLowTick (hT : u.inp.nowUs.toNat ≤ n + T) (hf : u.fsm = .bitLow) :
    OnSchedule B T u.inp.nowUs.toNat (bitLowTick u) := by
  simp only [OnSchedule, hf] at h
  obtain ⟨-, e⟩ | ⟨-, -, e⟩ | ⟨-, hin, e⟩ := bitLowTick_cases u <;> rw [e]
  · simp only [OnSchedule]
    omega
  · exact onSchedule_of_idle rfl
  · simp only [OnSchedule, hf]
    omega

/-- A bit is accepted only within the timeout: past it, the default policy gives the poll up. -/
theorem onSchedule_bitHighTick (hc : u.cfg = Config.hardware) (hf : u.fsm = .bitHigh)
    (hfits : u.inp.nowUs.toNat + 500000 < 2 ^ 64) : OnSchedule B T u.inp.nowUs.toNat (bitHighTick u) := by
  have hbit : u.cfg.tBitTimeoutUs = 200 := by rw [hc]; rfl
  have hdl : (deadlineAfter u.inp.nowUs 200).toNat = u.inp.nowUs.toNat + 200 := toNat_deadlineAfter _ _ (by omega)
  have hpolicy : u.cfg.lastBitPolicy = .fail := by rw [hc]; rfl
  simp only [OnSchedule, hf] at h
  obtain ⟨-, hin, e⟩ | ⟨-, e⟩ | ⟨-, -, hin, e⟩ := bitHighTick_cases u <;> rw [e]
  · simp only [OnSchedule, hf]
    omega
  · obtain ⟨-, hone, -⟩ | ⟨-, e⟩ := zeroResult_cases u
    · simp [hpolicy] at hone
    · rw [e]
      exact onSchedule_of_idle rfl
  · obtain ⟨hi, e⟩ | ⟨-, e⟩ := acceptBit_cases (classify u.cfg _) u <;> rw [e]
    · have hnext : (u.bitIdx + 1).toNat = u.bitIdx.toNat + 1 := by bv_omega
      simp only [OnSchedule, hbit, hdl, hnext, latestCellStart_succ]
      omega
    · exact onSchedule_of_idle (checkFrame_fsm _ _)

/-- The rule of a busy state keeps the schedule or ends the poll. -/
theorem onSchedule_stateRule (hc : u.cfg = Config.hardware) (hT : u.inp.nowUs.toNat ≤ n + T) (hbusy : u.fsm ≠ .idle)
    (hfits : u.inp.nowUs.toNat + 500000 < 2 ^ 64) (hrule : stateRule u = .next t) :
    OnSchedule B T u.inp.nowUs.toNat t := by
  obtain ⟨hf, -, -⟩ | ⟨hf, -, -⟩ | ⟨hf, rfl⟩ | ⟨hf, rfl⟩ | ⟨hf, rfl⟩ | ⟨hf, rfl⟩ | ⟨hf, rfl⟩ | ⟨hf, rfl⟩ |
    ⟨hf, rfl⟩ := stateRule_cases u t hrule
  · exact absurd hf hbusy
  · exact absurd hf hbusy
  · exact onSchedule_startLowTick h hc hT hf
  · exact onSchedule_startHighTick h hc hT hf
  · exact onSchedule_respCheckTick h hc hT hf hfits
  · exact onSchedule_preLowTick h hT hf
  · exact onSchedule_preHighTick h hc hT hf hfits
  · exact onSchedule_bitLowTick h hT hf
  · exact onSchedule_bitHighTick h hc hf hfits

end

/-! ### The run -/

/-- As long as the poll that started at `L` ms runs, which `LAST_POLL_MS` says, it is on schedule. -/
structure PollOnSchedule (B T L : Nat) (u : State) : Prop where
  cfg : u.cfg = Config.hardware
  lastPoll_ge : L ≤ u.lastPollMs.toNat
  onSchedule : u.fsm ≠ .idle → u.lastPollMs.toNat = L → OnSchedule B T u.inp.nowUs.toNat u

/-- An ordinary tick keeps it: from IDLE only a new poll is busy, and it moves `LAST_POLL_MS` on. -/
theorem pollOnSchedule_step {L : Nat} (hu : PollOnSchedule B T L u) (hd : OrdinaryTick d u)
    (hT : d.nowUs.toNat ≤ u.inp.nowUs.toNat + T) (h : step (present d u) = .next v) : PollOnSchedule B T L v := by
  obtain ⟨hcfg, hinp, -⟩ := everyTickSamplesItsPorts _ v h
  have hinp : v.inp = d := hinp
  have hgrow : u.lastPollMs.toNat ≤ v.lastPollMs.toNat :=
    (betweenResetsValidStaysAndLastPollGrows _ v h (by rw [hinp]; exact hd.not_rst)).2
  refine ⟨hcfg.trans hu.cfg, hu.lastPoll_ge.trans hgrow, fun hv hlast => ?_⟩
  have hulast : u.lastPollMs.toNat = L := le_antisymm (hgrow.trans hlast.le) hu.lastPoll_ge
  rw [hinp]
  by_cases hidle : u.fsm = .idle
  · obtain ⟨-, -, hstale, -, -, hnew, -⟩ := onlyAStaleReadLeavesIdle _ v h hidle hv
    simp only [present_lastPollMs] at hstale
    omega
  · have hfits := hd.no_wrap
    rw [hu.cfg] at hfits
    rw [step_present_of_ordinary d u hd] at h
    exact onSchedule_stateRule (u := sampled d u) (hu.onSchedule hidle hulast) hu.cfg hT hidle hfits h

/-- What a run keeps whose ticks, with the tick `d` after them, are no resets, keep the time premises and are at most
`T` apart. -/
structure SpacedRun (B T L : Nat) (d : TickIn) (ds : List TickIn) (u : State) : Prop where
  no_reset : noReset (ds ++ [d])
  admissible : timesAdmissible Config.hardware u.inp.nowUs (ds ++ [d])
  spaced : ticksSpaced T u.inp.nowUs (ds ++ [d])
  poll : PollOnSchedule B T L u

theorem spacedRun_withDraws {L : Nat} (ds es : List TickIn) (u : State) (h : SpacedRun B T L d ds u) :
    SpacedRun B T L d ds { u with draws := es } := by
  obtain ⟨hreset, hadm, hspaced, ⟨hcfg, hlast, hpoll⟩⟩ := h
  exact ⟨hreset, hadm, hspaced, ⟨hcfg, hlast, hpoll⟩⟩

theorem spacedRun_step {L : Nat} (e : TickIn) (ds : List TickIn) (u v : State) (hu : SpacedRun B T L d (e :: ds) u)
    (h : step (present e u) = .next v) : SpacedRun B T L d ds v := by
  obtain ⟨hreset, ⟨ha, hadm⟩, ⟨hT, hspaced⟩, hpoll⟩ := hu
  obtain ⟨he, hds⟩ := List.forall_mem_cons.mp hreset
  obtain ⟨hmono, hfits⟩ := (timeAdmissible_iff _ _ _).mp ha
  have hd : OrdinaryTick e u := ⟨he, hmono, by rw [hpoll.cfg]; exact hfits⟩
  obtain ⟨-, hinp, -⟩ := everyTickSamplesItsPorts _ v h
  have hinp : v.inp = e := hinp
  exact ⟨hds, by rw [hinp]; exact hadm, by rw [hinp]; exact hspaced, pollOnSchedule_step hpoll hd hT h⟩

/-- Settles O57: the poll is on schedule up to the last tick that finds it running. -/
theorem aPollEndsWithinItsWorstCase : Obligations.APollEndsWithinItsWorstCase := by
  unfold Obligations.APollEndsWithinItsWorstCase
  intro T ds d s t hcfg hf hmark hreset hadm hspaced hrun hbusy hlast
  have hstart : PollOnSchedule s.inp.nowUs.toNat T s.lastPollMs.toNat s := by
    refine ⟨hcfg, le_rfl, fun _ _ => ?_⟩
    simp only [OnSchedule, hf, hmark]
    omega
  rw [hcfg] at hadm
  obtain ⟨-, -, -, ⟨hT, -⟩, hpoll⟩ :=
    runDraws_induct spacedRun_withDraws spacedRun_step ds hrun ⟨hreset, hadm, hspaced, hstart⟩
  exact hT.trans (onSchedule_next_le (hpoll.onSchedule hbusy (congrArg BitVec.toNat hlast)) hbusy)

end Sys2Proof.Machine
end
